-- ==== Sys2Proof/Word.lean ====
section
/-! DEFINITION. The word types the messages and frames carry, samples and blocks of samples, level codes,
and the one way a fixed table is built, read and written. -/

namespace Sys2Proof

/-- One byte of a message, a cell or a frame (Table 9-3). -/
abbrev U8 := BitVec 8
/-- A two-byte field, carried most significant byte first (9.1). -/
abbrev U16 := BitVec 16
/-- A four-byte field, carried most significant byte first (9.1). -/
abbrev U32 := BitVec 32
/-- An eight-byte field: 64 flags (R180, R185, Table 8-1). -/
abbrev U64 := BitVec 64
/-- A sample as it is carried and stored: 24-bit two's complement (0.5.2). -/
abbrev Sample := BitVec 24

/-- The 48 samples of one channel in one frame (0.5.1); in the mix a sample is an exact integer. -/
abbrev Block := Vector Int 48

/-- A level code, 0 to 1000 (0.5.3): out-of-range codes cannot be stored. -/
abbrev LevelCode := Fin 1001

/-- A fixed table given entry by entry. -/
abbrev table {α : Type} {n : Nat} (f : Fin n → α) : Vector α n := Vector.ofFn f

/-- The table with one entry replaced. -/
def put {α : Type} {n : Nat} (v : Vector α n) (i : Fin n) (x : α) : Vector α n := v.set i.val x i.isLt

/-- The table with one entry changed in place. -/
def alter {α : Type} {n : Nat} (v : Vector α n) (i : Fin n) (f : α → α) : Vector α n := put v i (f v[i])

/-- A block of zero samples. -/
def silence : Block := Vector.replicate 48 0

end Sys2Proof
end

