-- ==== Sys2Proof/Config.lean ====
section
/-! DEFINITION. The constants the manual fixes, and the two choices that pairs of its rules leave open, constants without a value;
every order it leaves open is an operand of the boundary commands (log entry 2). -/

namespace Sys2Proof.Config

/-- Unity gain in Q2.22 (0.5.4). -/
def unity : Nat := 4194304
/-- Largest and smallest sample (0.5.2). -/
def sampleMax : Int := 8388607
/-- The smallest sample (0.5.2). -/
def sampleMin : Int := -8388608
/-- Every run counter and every count of the link interface stops here (R27, R159, R160, R163, R168). -/
def runStop : Nat := 65535
/-- Records of the fade table (R101, law L3). -/
def maxFades : Nat := 256
/-- Cues in the list (R81). -/
def maxCues : Nat := 512
/-- Actions of all cues together (R81). -/
def maxActions : Nat := 4096
/-- Actions of one cue (R81). -/
def maxCueActions : Nat := 32
/-- Longest fade and longest follow wait in frames (R82). -/
def maxFrames : Nat := 600000
/-- Replies in the reply queue (R176). -/
def maxReplies : Nat := 4
/-- Bytes of a message body and of a reply body (R173, R177). -/
def maxBody : Nat := 280
/-- Cells of one message (R173). -/
def maxCells : Nat := 10
/-- Body bytes of one cell (Table 9-2). -/
def cellBody : Nat := 28
/-- Entries of the staged-write store (R182). -/
def maxStaged : Nat := 256
/-- Records of the event queue (R184). -/
def maxEvents : Nat := 32
/-- Most records one EVENT FETCH returns (R185). -/
def maxFetch : Nat := 10
/-- Samples of clip memory (R113). -/
def clipMemory : Nat := 4194304
/-- Shortest clip (R113). -/
def minClip : Nat := 48
/-- Records of priority 0..2 the call queue holds (R135). -/
def maxCalls : Nat := 16
/-- Boundaries after which a debounced line is taken (R189). -/
def debounceRun : Nat := 20
/-- Good arrivals in a row that lock the link (R165). -/
def lockCount : Nat := 100
/-- The hop count at and above which a frame is dropped (R159). -/
def hopLimit : Nat := 62
/-- Wait limit and ack timeout of a call placed by a cue action (R96). -/
def cueCallLimit : Nat := 30000
/-- Pass count at which a call reserves its zones (R143). -/
def passLimit : Nat := 3
/-- Frames of a restart's cut-out (R16, R121). -/
def cutOutFrames : Nat := 4
/-- Release of the show-stop duck source (Table 4-2). -/
def stopRelease : Nat := 1000
/-- The broadcast address (Table 0-5). -/
def broadcastAddress : U8 := 63

/-- Whether a write of source NONE fades the old source out over one frame, as R34 says, or cuts it, as R33 says: free, since
no rule settles which of the two holds (log entry 8). -/
opaque noneFades : Bool

/-- Whether a MOVE on the gain of a call voice in force is skipped while a lower reserve is pending, as R126 says, or performed,
since R94 skips by the NODE setting alone: free, since no rule settles which of the two holds (log entry 16). -/
opaque callVoiceSkips : Bool

end Sys2Proof.Config
end

