-- ==== Sys2Proof/Syntax.lean ====
section
/-! DEFINITION. The commands: one constructor of Instr per row of spec/opcode_table.json, with the operands the
row's rule gives it, and the bodies of the messages as Chapter 9 carries them. -/

namespace Sys2Proof

/-- A link port (8.2). -/
inductive Port where
  | a | b
  deriving DecidableEq, Repr

/-- The two sources of an input (Table 2-1). -/
inductive Side where
  | primary | spare
  deriving DecidableEq, Repr

/-- A source an input may take (Table 2-1). -/
inductive Src where
  | link (slot : Fin 64)
  | localIn (channel : Fin 8)
  | voice (v : Fin 8)
  deriving DecidableEq, Repr

/-- A target a fade can act on (0.7, Table 5-2). -/
inductive Target where
  | crosspoint (i : Fin 64) (b : Fin 32)
  | busGain (b : Fin 32)
  | zoneLevel (z : Fin 16)
  | voiceGain (v : Fin 8)
  deriving DecidableEq, Repr

/-- How a message reached the node: a cell for its own address (with the tag of its START cell), for a group
(with the group's address), or for broadcast (R172, R173). -/
inductive Origin where
  | addressed (tag : U8)
  | group (address : U8)
  | broadcast
  deriving DecidableEq, Repr

/-- A debounced control line (10.2). -/
inductive LineId where
  | go
  | talk (g : Fin 4)
  | ack (z : Fin 16)
  | presence (p : Fin 2)
  deriving DecidableEq, Repr

/-- The raw levels of the control pins at one boundary, true for ASSERTED (R189). -/
structure Pins where
  go : Bool
  talk : BitVec 4
  ack : BitVec 16
  presence : BitVec 2
  deriving DecidableEq, Repr

/-- A request or answer cell: 32 bytes (Table 9-2). Byte 0 is the destination of a request cell and the owner of an
answer cell. -/
structure Cell where
  address : U8
  flags : U8
  tag : U8
  length : U8
  body : Vector U8 28
  deriving DecidableEq, Repr

/-- A link frame after its sync marker: 9,306 bytes (Table 8-1). The validity map and the attention field are the
numbers their eight bytes spell, so slot or address k is bit 63 - k. -/
structure Frame where
  number : U32
  flags : U8
  hop : U8
  validity : U64
  audio : Vector (Vector Sample 48) 64
  request : Cell
  answer : Cell
  attention : U64
  check : U32
  deriving DecidableEq, Repr

/-- One piece of the work of a frame boundary. Their default order, and which of them must come before which, stand in
Machine/Boundary.lean; the order of the rest is the sender's (0.5.1, log entry 2). -/
inductive Item where
  | levels | ends | node | linkEvents | lossEvent | stopFades | reserve
  | completions | writes | voiceWrites | talks | warmReset | showReset | requests | goLine | follow | capture | lossCapture
  | lossPartial | hold
  | relayEnds | relayRequests | relayPresses | relayAcks | relayStops | relaySchedule | relayWaits
  | relayDucks | relaySpeak | relayLamps
  | count | transitions | carry | followTiming | keys | transport | outputs | cell | forward | latePosts | execute
  | meters | inputMeters | busMeters
  deriving DecidableEq, Repr

/-- The blocks from which posts come to the message controller (R184, Table 9-8). Its own posts come from no other block. -/
inductive Poster where
  | inputs | mix | cue | clip | relay | link
  deriving DecidableEq, Repr

/-- What reaches the node from its local side at a boundary, and the order in which the boundary's work is taken: pins
as sampled, the samples each local input channel received since the previous boundary (oldest first), the items taken
first and in which order, whether the rest is taken at once or left due, and the blocks whose posts of this boundary come
late, in the order of their turns, a block once for each post, with the same for the clips that end the frame (R184; log
entries 2 and 3). -/
structure Env where
  pins : Pins
  audio : Vector (List Sample) 8
  order : List Item := []
  rest : Bool := true
  late : List Poster := []
  frameLate : List Poster := []
  deriving DecidableEq, Repr

/-- A source field as carried: a kind byte and an index byte (Table 9-3). -/
structure RawSource where
  kind : U8
  index : U8
  deriving DecidableEq, Repr

/-- A fade target as carried (Table 9-3). -/
structure RawTarget where
  kind : U8
  first : U8
  second : U8
  deriving DecidableEq, Repr

/-- An INPUT entry as written (Table 9-6). -/
structure RawInput where
  source : RawSource
  spare : RawSource
  trim : U16
  lossThreshold : U32
  restoreThreshold : U32
  autoReturn : U8
  talkGroup : U8
  deriving DecidableEq, Repr

/-- A BUS entry as written (Table 9-6). -/
structure RawBus where
  kind : U8
  gain : U16
  mute : U8
  limiter : U8
  threshold : U16
  release : U32
  stopDuck : U8
  deriving DecidableEq, Repr

/-- An OUTPUT entry as written (Table 9-6). -/
structure RawOutput where
  source : RawSource
  slot : U8
  deriving DecidableEq, Repr

/-- A ZONE entry as written (Table 9-6). -/
structure RawZone where
  programme : U8
  level : U16
  callLevel : U16
  duckDepth : U16
  attack : U32
  release : U32
  deriving DecidableEq, Repr

/-- A TALK entry as written (Table 9-6). -/
structure RawTalk where
  input : U8
  buses : U32
  depth : U16
  attack : U32
  release : U32
  deriving DecidableEq, Repr

/-- The NODE entry as written (Table 9-6, R180). -/
structure RawNode where
  group0 : U8
  group1 : U8
  group2 : U8
  group3 : U8
  guard : U32
  reserve : U8
  holdLimit : U32
  stopDepth : U16
  enables : U64
  deriving DecidableEq, Repr

/-- A crosspoint window as carried (R46). -/
structure RawWindow where
  inputFirst : U8
  inputLast : U8
  busFirst : U8
  busLast : U8
  deriving DecidableEq, Repr

/-- The place of a TABLE READ: a window for CROSSPOINT, a first index and a count for every other table (R179). -/
inductive ReadPlace where
  | window (w : RawWindow)
  | range (first count : U8)
  deriving DecidableEq, Repr

/-- A cue action as carried (Table 5-2, R175). -/
inductive RawAction where
  | move (target : RawTarget) (code : U16) (frames : U32) (shape : U8)
  | play (voice clip : U8) (gain : U16) (loop : U8)
  | stop (voice : U8) (frames : U32)
  | route (input : U8) (source spare : RawSource)
  | call (zones : U16) (priority clip ack repeats : U8)
  | unknown (kind : U8)
  deriving DecidableEq, Repr

/-- A cue record as CUE STORE carries it; the action count is the length of the list (R82, R175). -/
structure RawCue where
  number : U32
  follow : U8
  wait : U32
  actions : List RawAction
  deriving DecidableEq, Repr

/-- A call as CALL PLACE carries it (R136). -/
structure RawCall where
  priority : U8
  zones : U16
  source : RawSource
  ack : U8
  repeats : U8
  waitLimit : U32
  ackTimeout : U32
  maxOnAir : U32
  deriving DecidableEq, Repr

/-- The message kinds of Table 9-4 with the fields their owning rules list. -/
inductive Request where
  | writeInput (first : U8) (entries : List RawInput)
  | writeCrosspoint (window : RawWindow) (codes : List U16)
  | writeBus (first : U8) (entries : List RawBus)
  | writeOutput (first : U8) (entries : List RawOutput)
  | writeZone (first : U8) (entries : List RawZone)
  | writeTalk (first : U8) (entries : List RawTalk)
  | writeVoice (first : U8) (codes : List U16)
  | writeNode (first : U8) (entries : List RawNode)
  | read (table : U8) (place : ReadPlace)
  | readMeter (first count : U8)
  | hold (mode : U8)
  | cueStore (cue : RawCue)
  | cueRemove (number : U32)
  | cueRead (number : U32) (mode : U8)
  | go (number : U32)
  | standby (number : U32)
  | halt
  | resume
  | callPlace (call : RawCall)
  | callEnd (id : U16)
  | callCancel (id : U16)
  | talk (group setting : U8)
  | inputSelect (input choice : U8)
  | capture (clip : U8) (source : RawSource) (length : U32)
  | captureAbort (clip : U8)
  | clipRemove (clip : U8)
  | voicePlay (voice clip : U8) (gain : U16) (loop : U8)
  | voiceStop (voice : U8) (frames : U32)
  | status (part first count : U8)
  | eventFetch (max : U8)
  | flagsClear (flags : U64)
  | reset (mode : U8)
  deriving DecidableEq, Repr

/-- The commands of spec/opcode_table.json, one constructor per row. A message row carries the message's origin and
fields; a row that happens inside a boundary carries what it happens to. -/
inductive Instr where
  | coldReset (straps : BitVec 6)
  | frameArrival (port : Port) (frame : Frame) (env : Env)
  | localIntervalExpiry (env : Env)
  | linkLost (env : Env)
  | reacquireTimeout
  | levelTaken (line : LineId)
  | primaryLoss (input : Fin 64)
  | spareLoss (input : Fin 64)
  | autoReturn (input : Fin 64)
  | restore (input : Fin 64)
  | fadeComplete (target : Target)
  | followTimingStart
  | followExpiry
  | cutOutEnd (voice : Fin 8)
  | playbackEnd (voice : Fin 8)
  | callStopEnd (voice : Fin 8)
  | reserveChange
  | captureDone
  | onairLimit (id : U16)
  | ackTimeout (id : U16)
  | expired (id : U16)
  | showStopOnAir
  | callOnAir (id : U16)
  | callSpeaking (id : U16)
  | holdTimeout
  | tableWriteInput (origin : Origin) (first : U8) (entries : List RawInput)
  | tableWriteCrosspoint (origin : Origin) (window : RawWindow) (codes : List U16)
  | tableWriteBus (origin : Origin) (first : U8) (entries : List RawBus)
  | tableWriteOutput (origin : Origin) (first : U8) (entries : List RawOutput)
  | tableWriteZone (origin : Origin) (first : U8) (entries : List RawZone)
  | tableWriteTalk (origin : Origin) (first : U8) (entries : List RawTalk)
  | tableWriteVoice (origin : Origin) (first : U8) (codes : List U16)
  | tableWriteNode (origin : Origin) (first : U8) (entries : List RawNode)
  | tableRead (origin : Origin) (table : U8) (place : ReadPlace)
  | meterRead (origin : Origin) (first count : U8)
  | holdOn (origin : Origin)
  | holdApply (origin : Origin)
  | holdDiscard (origin : Origin)
  | cueStore (origin : Origin) (cue : RawCue)
  | cueRemove (origin : Origin) (number : U32)
  | cueRead (origin : Origin) (number : U32) (mode : U8)
  | go (origin : Origin) (number : U32)
  | standby (origin : Origin) (number : U32)
  | halt (origin : Origin)
  | resume (origin : Origin)
  | callPlace (origin : Origin) (call : RawCall)
  | callEnd (origin : Origin) (id : U16)
  | callCancel (origin : Origin) (id : U16)
  | talk (origin : Origin) (group setting : U8)
  | inputSelect (origin : Origin) (input choice : U8)
  | capture (origin : Origin) (clip : U8) (source : RawSource) (length : U32)
  | captureAbort (origin : Origin) (clip : U8)
  | clipRemove (origin : Origin) (clip : U8)
  | voicePlay (origin : Origin) (voice clip : U8) (gain : U16) (loop : U8)
  | voiceStop (origin : Origin) (voice : U8) (frames : U32)
  | statusRead (origin : Origin) (part first count : U8)
  | eventFetch (origin : Origin) (max : U8)
  | flagsClear (origin : Origin) (flags : U64)
  | resetWarm (origin : Origin)
  | showReset (origin : Origin)
  | resetPinAsserted
  deriving DecidableEq, Repr

end Sys2Proof
end

