-- ==== Sys2Proof/Machine/State.lean ====
section
/-! DEFINITION. The state of the ZJ448, block by block (Table 0-2), plain data; the reasons a step can stop; and the
state after cold reset. -/

namespace Sys2Proof.Machine

open Sys2Proof

/-- The reasons a step can stop with a fault. There is none: every command of the table has an effect in every state
(a frame that fails its check, an expiry that finds no timer running and a request out of range all have effects the
manual gives). -/
inductive Fault where
  deriving DecidableEq, Repr

/-- The reasons a step can be refused. -/
inductive Refusal where
  /-- Raised by no meaning: it is the answer of a dispatch arm whose command has no meaning yet. Safe. -/
  | notModelled (mnemonic : String)
  deriving DecidableEq, Repr

/-- The result codes of Table 9-5, in the order of their values. -/
inductive ResultCode where
  | ok | length | unknownKind | badTable | range | busy | noSpace | notFound | inUse | stageFull | guard | held
  | heldByStop | invalidSource
  deriving DecidableEq, Repr

/-! ### Events (9.7) -/

/-- The event kinds of Table 9-8, in the order of their values 1 to 29. -/
inductive EventKind where
  | inputLoss | inputSubstituted | inputRestored | inputReturned | inputClip | busClip | limiting | cueFired
  | goUnknown | goRefused | actionSkipped | fadeTableFull | cueHeld | cueResumed | captureDone | captureAborted
  | callEnded | callCut | onairLimit | showStopOnAir | callRefused | linkLost | linkRestored | reverseTraffic
  | damagedFrame | fragmentDiscarded | requestOverrun | holdTimeout | showReset
  deriving DecidableEq, Repr

/-- The block from which a kind comes to the message controller; none for the message controller's own (Table 9-8). -/
def EventKind.poster : EventKind → Option Poster
  | .inputLoss | .inputSubstituted | .inputRestored | .inputReturned | .inputClip => some .inputs
  | .busClip | .limiting => some .mix
  | .cueFired | .goUnknown | .goRefused | .actionSkipped | .fadeTableFull | .cueHeld | .cueResumed => some .cue
  | .captureDone | .captureAborted => some .clip
  | .callEnded | .callCut | .onairLimit | .showStopOnAir | .callRefused => some .relay
  | .linkLost | .linkRestored | .reverseTraffic | .damagedFrame => some .link
  | .fragmentDiscarded | .requestOverrun | .holdTimeout | .showReset => none

/-- The subject of an event (Table 9-7). -/
inductive Subject where
  | none
  | input (i : Fin 64)
  | bus (b : Fin 32)
  | cue (number : Nat)
  | call (id : Nat)
  | clip (id : Nat)
  deriving DecidableEq, Repr

/-- What a block posts: kind, subject and the bytes of the detail (R184). -/
structure Post where
  kind : EventKind
  subject : Subject
  detail : List U8
  deriving DecidableEq, Repr

/-- An event record (Table 9-7): a post with the frame counter of its boundary. -/
structure EventRecord where
  stamp : U32
  post : Post
  deriving DecidableEq, Repr

/-! ### Link interface (Chapter 8) -/

/-- The link states of Table 8-2. -/
inductive LinkState where
  | unlocked | reacquiring | locked | lost
  deriving DecidableEq, Repr

/-- The state of the link interface (R157 to R171). The fields from `restoring` on are those of the boundary at hand. -/
structure Link where
  state : LinkState
  /-- LOCKED and past the first LINK-TIMED boundary (R165). -/
  linkTimed : Bool
  upstream : Option Port
  counter : U32
  reacquire : Nat
  /-- The arrival timer runs; its 3 ms themselves are time the model does not count (log entry 4). -/
  timerRunning : Bool
  damaged : Nat
  hopDrop : Nat
  reverse : Nat
  loss : Nat
  /-- Boundaries the link has been LOCKED, the detail of LINK_LOST (R163). -/
  lockedFor : Nat
  /-- The times the link has become LOCKED since cold reset, the detail of LINK_RESTORED (R165). -/
  locks : Nat
  /-- The boundary at hand is the first LINK-TIMED one since the link became LOCKED, so LINK_RESTORED is due (R165). -/
  restoring : Bool
  /-- The frame of the boundary at hand as it arrived, none at a LOCAL-TIMED boundary. -/
  frame : Option Frame
  /-- The frame at hand passed its check. -/
  checked : Bool
  /-- The slots of the frame at hand and their validity (R24, R166). -/
  slots : Vector Block 64
  slotValid : Vector Bool 64
  /-- The frame forwarded on the downstream port at the boundary at hand (R167). -/
  sent : Option Frame
  deriving DecidableEq, Repr

/-! ### Input supervisor (Chapter 2) -/

/-- The supervision states of Table 2-2. -/
inductive SupState where
  | idle | primary | spare | lost
  deriving DecidableEq, Repr

/-- The seven entry fields of an input record (Table 2-1). -/
structure InputEntry where
  source : Option Src
  spare : Option Src
  trim : LevelCode
  lossThreshold : Nat
  restoreThreshold : Nat
  autoReturn : Bool
  talkGroup : Option (Fin 4)
  deriving DecidableEq, Repr

/-- An input record (Table 2-1) with the carried source of R33. -/
structure InputRecord where
  entry : InputEntry
  state : SupState
  active : Side
  forced : Bool
  invalidRun : Nat
  primaryRun : Nat
  spareRun : Nat
  /-- Gate value at the last sample of the previous frame (R7). -/
  gateEnd : Nat
  /-- Gate target of the frame at hand (R39). -/
  gateTarget : Nat
  clip : Bool
  meter : Nat
  /-- The source carried in the frame at hand (R33). -/
  carried : Option Src
  /-- In a crossfade frame, the outgoing source or no source (R33). -/
  outgoing : Option (Option Src)
  /-- This boundary's transition was a loss transition, so its change of source is a hard cut (R33). -/
  lossCut : Bool
  deriving DecidableEq, Repr

/-! ### Mix engine and foldback (Chapters 3 and 4) -/

/-- The kinds of Table 3-3. -/
inductive BusKind where
  | unused | foldback | relay | send
  deriving DecidableEq, Repr

/-- The duck states of Table 4-3, which Chapter 7 uses for zones too. -/
inductive DuckState where
  | idle | attacking | heldDown | releasing
  deriving DecidableEq, Repr

/-- The duck sources of R68. -/
inductive DuckSource where
  | stop
  | talk (g : Fin 4)
  deriving DecidableEq, Repr

/-- The seven entry fields of a bus record (Table 3-3). -/
structure BusEntry where
  kind : BusKind
  gain : LevelCode
  mute : Bool
  limiter : Bool
  threshold : LevelCode
  release : Nat
  stopDuck : Bool
  deriving DecidableEq, Repr

/-- A bus record (Table 3-3, 4.2, 4.3). A `From` value is the end value of the previous frame, an `End` value that of the
frame at hand: the p and q of its frame ramp (R4). -/
structure BusRecord where
  entry : BusEntry
  muteFrom : Nat
  muteEnd : Nat
  duckFrom : Nat
  duckEnd : Nat
  duckState : DuckState
  governing : Option DuckSource
  limiterGain : Nat
  /-- The limiting flag of R77. -/
  limiting : Bool
  /-- LIMITING was raised in the most recent frame (R61, R77). -/
  limitedNow : Bool
  clip : Bool
  meter : Nat
  deriving DecidableEq, Repr

/-- The source of an output entry (3.3). -/
inductive OutSource where
  | none
  | bus (b : Fin 32)
  | zone (z : Fin 16)
  deriving DecidableEq, Repr

/-- An output map entry; the slot acts for entries 24..39 and reads 0 for the others (R55). -/
structure OutputEntry where
  source : OutSource
  slot : Fin 64
  deriving DecidableEq, Repr

/-- A TALK entry (Table 4-1); bus b is bit b of the set. -/
structure TalkEntry where
  input : Option (Fin 64)
  buses : BitVec 32
  depth : LevelCode
  attack : Nat
  release : Nat
  deriving DecidableEq, Repr

/-- A talk group: its entry, its latch, and its key and liveness for the frame at hand (R64 to R67). -/
structure TalkGroup where
  entry : TalkEntry
  latch : Bool
  key : Bool
  live : Bool
  deriving DecidableEq, Repr

/-- The state of the mix engine (Table 3-1) and of the foldback side. -/
structure Mix where
  crosspoints : Vector (Vector LevelCode 32) 64
  buses : Vector BusRecord 32
  outputs : Vector OutputEntry 40
  talk : Vector TalkGroup 4
  /-- The show-stop condition stands for the boundary at hand (R69). -/
  stopStands : Bool
  /-- The mix of the previous frame, which the outputs carry (R58). -/
  busOut : Vector Block 32
  zoneOut : Vector Block 16
  deriving DecidableEq, Repr

/-! ### Cue engine (Chapter 5) -/

/-- Where a call's audio comes from (Table 7-3). -/
inductive CallSource where
  | clip (id : Nat)
  | input (i : Fin 64)
  deriving DecidableEq, Repr

/-- The shape and start value of a fade (R101). -/
inductive FadeStart where
  | linear (a : Nat)
  | level (code : LevelCode)
  deriving DecidableEq, Repr

/-- The shapes a MOVE may carry (Table 5-2). -/
inductive Shape where
  | linear | level
  deriving DecidableEq, Repr

/-- A stored action (Table 5-2), clamped and in range (R82). -/
inductive Action where
  | move (target : Target) (code : LevelCode) (frames : Nat) (shape : Shape)
  | play (voice : Fin 8) (clip : Nat) (gain : LevelCode) (loop : Bool)
  | stop (voice : Fin 8) (frames : Nat)
  | route (input : Fin 64) (source spare : Option Src)
  | call (zones : BitVec 16) (priority : Fin 4) (clip : Nat) (ackRequired : Bool) (repeats : Nat)
  deriving DecidableEq, Repr

/-- The follow kinds of R81. -/
inductive FollowKind where
  | none | afterWait | afterComplete
  deriving DecidableEq, Repr

/-- A cue record (R81); the number is a count of tenths. -/
structure Cue where
  number : Nat
  follow : FollowKind
  wait : Nat
  actions : List Action
  deriving DecidableEq, Repr

/-- An open item of a follow (R99). -/
inductive FollowItem where
  | fade (target : Target)
  | voice (v : Fin 8)
  deriving DecidableEq, Repr

/-- The pending-follow record (5.5). `since` is the boundary at which it entered phase TIMING and `serial` the firing that
set it up: the model's own, to say which boundaries step it and which playbacks it counts. -/
structure Follow where
  cue : Nat
  kind : FollowKind
  timing : Bool
  items : List FollowItem
  wait : Nat
  remaining : Nat
  since : Nat
  serial : Nat
  deriving DecidableEq, Repr

/-- A fade record (R101). `serial` is the firing that created or took it over, 0 for none. -/
structure Fade where
  target : Target
  start : FadeStart
  endCode : LevelCode
  frames : Nat
  elapsed : Nat
  owner : Option Nat
  serial : Nat
  deriving DecidableEq, Repr

/-- The state of the cue engine (Table 5-1). -/
structure CueEngine where
  cues : List Cue
  standby : Option Nat
  lastFiring : Option Nat
  lastCue : Option Nat
  follow : Option Follow
  fades : List Fade
  held : Bool
  /-- Firings since cold reset: the model's own, the serial of the most recent firing. -/
  firings : Nat
  deriving DecidableEq, Repr

/-! ### Clip player (Chapter 6) -/

/-- A clip record (R113) with the samples stored so far; STORED when `stored` is true, CAPTURING otherwise. -/
structure Clip where
  id : Nat
  length : Nat
  stored : Bool
  samples : List Sample
  deriving DecidableEq, Repr

/-- The capture record (6.2). -/
structure Capture where
  running : Bool
  clip : Nat
  source : Src
  length : Nat
  count : Nat
  deriving DecidableEq, Repr

/-- Who started a playback (Table 6-3). -/
inductive Owner where
  | cue (number : Nat)
  | direct
  | call (id : Nat)
  deriving DecidableEq, Repr

/-- A playback: clip, loop and owner (Table 6-3), and the firing that started it, 0 for none. -/
structure Playback where
  clip : Nat
  loop : Bool
  owner : Owner
  serial : Nat
  deriving DecidableEq, Repr

/-- A pending start: a playback and its gain code (R121). -/
structure PendingStart where
  playback : Playback
  gain : LevelCode
  deriving DecidableEq, Repr

/-- The voice states of Table 6-4. -/
inductive VoiceState where
  | idle | playing | paused | stopping
  deriving DecidableEq, Repr

/-- The endings of Table 6-3. -/
inductive Ending where
  | none | stopFade | cutOut | callCut
  deriving DecidableEq, Repr

/-- A voice (Table 6-3). -/
structure Voice where
  state : VoiceState
  playback : Option Playback
  position : Nat
  ending : Ending
  pending : Option PendingStart
  gain : LevelCode
  /-- Live gain at the last sample of the previous frame (R121). -/
  gainEnd : Nat
  /-- Transport factor at the last sample of the previous frame. -/
  factorEnd : Nat
  /-- The factor at which a cut-out began and the frames of it computed (R16, R121). -/
  cutFrom : Nat
  cutElapsed : Nat
  /-- The clip has run out; the end takes effect at the next boundary (R119). -/
  ranOut : Bool
  deriving DecidableEq, Repr

/-- The state of the clip player (Table 6-1); the reserve setting is the NODE entry's. -/
structure ClipPlayer where
  clips : List Clip
  capture : Option Capture
  voices : Vector Voice 8
  reserve : Nat
  deriving DecidableEq, Repr

/-! ### Relay controller (Chapter 7) -/

/-- The six entry fields of a zone (Table 7-2). -/
structure ZoneEntry where
  programme : Option (Fin 32)
  level : LevelCode
  callLevel : LevelCode
  duckDepth : LevelCode
  attack : Nat
  release : Nat
  deriving DecidableEq, Repr

/-- A zone (7.1). -/
structure Zone where
  entry : ZoneEntry
  /-- FREE when none, otherwise ON_AIR with the call's id (R134). -/
  call : Option Nat
  /-- The zone was ON_AIR at the end of the previous pass, and under a show-stop call (R133). -/
  wasOnAir : Bool
  wasStop : Bool
  duckFrom : Nat
  duckEnd : Nat
  duckState : DuckState
  latch : Bool
  lamp : Bool
  /-- The voice whose one-frame cut feeds the zone in the frame at hand (R134). -/
  tail : Option (Fin 8)
  deriving DecidableEq, Repr

/-- Acknowledgement of a call in one zone (Table 7-3). -/
inductive Ack where
  | notAsked | pending | acked
  deriving DecidableEq, Repr

/-- The states of a call in the queue; ON_AIR carries its phase, true for SPEAKING (Table 7-3). -/
inductive CallState where
  | waiting
  | onAir (speaking : Bool)
  | awaitAck
  deriving DecidableEq, Repr

/-- A call record (Table 7-3). The queue lists records in acceptance order, so the order itself is not a field. `since` is
the boundary at which the call entered its present state, `fromPass` the first pass it takes part in. -/
structure Call where
  id : Nat
  priority : Fin 4
  zones : BitVec 16
  source : CallSource
  ackRequired : Bool
  acks : Vector Ack 16
  repeats : Nat
  waitLimit : Nat
  ackTimeout : Nat
  maxOnAir : Nat
  state : CallState
  voice : Option (Fin 8)
  passes : Nat
  reserved : BitVec 16
  waitCount : Nat
  ackCount : Nat
  onAirCount : Nat
  since : Nat
  fromPass : Nat
  deriving DecidableEq, Repr

/-- The end states and the reasons of R135. -/
inductive CallEnd where
  | done | expired | unanswered
  | cancelledAsked | cancelledCut | cancelledUnaired | cancelledNoVoice
  deriving DecidableEq, Repr

/-- The causes with which the clip player reports the end of a call's playback (R119, R126). -/
inductive EndCause where
  | ended | cut | taken
  deriving DecidableEq, Repr

/-- A report of the end of a call's playback. -/
structure EndReport where
  call : Nat
  cause : EndCause
  deriving DecidableEq, Repr

/-- A CALL END or CALL CANCEL waiting for step 2 of the next pass (R140, R141). -/
structure RelayRequest where
  cancel : Bool
  id : Nat
  place : Option Nat
  deriving DecidableEq, Repr

/-- The state of the relay controller (Table 7-1). -/
structure Relay where
  zones : Vector Zone 16
  calls : List Call
  lastId : Nat
  accepted : Nat
  requests : List RelayRequest
  reports : List EndReport
  /-- A priority-3 call was ON_AIR at the end of the most recent pass: the report of step 9 (R69, R138). -/
  stopOnAir : Bool
  deriving DecidableEq, Repr

/-! ### Message controller (Chapter 9) -/

/-- The NODE entry (R180). A membership is a group address, or 0 for none. -/
structure NodeEntry where
  groups : Vector U8 4
  guard : Nat
  reserve : Nat
  holdLimit : Nat
  stopDepth : LevelCode
  enables : U64
  deriving DecidableEq, Repr

/-- A table entry as taken by a write: checked, clamped, keyed by its table and index (R178, R182). -/
inductive TableEntry where
  | input (i : Fin 64) (e : InputEntry)
  | crosspoint (i : Fin 64) (b : Fin 32) (code : LevelCode)
  | bus (b : Fin 32) (e : BusEntry)
  | output (o : Fin 40) (e : OutputEntry)
  | zone (z : Fin 16) (e : ZoneEntry)
  | talk (g : Fin 4) (e : TalkEntry)
  | voice (v : Fin 8) (code : LevelCode)
  | node (e : NodeEntry)
  deriving DecidableEq, Repr

/-- What has been accepted and waits for its boundary: a table entry, `staged` when it came through an apply set (R183), or
an INPUT SELECT (R37). They stand in one order, that in which they were taken (R38). -/
inductive Accepted where
  | write (staged : Bool) (entry : TableEntry)
  | select (input : Fin 64) (side : Side)
  deriving DecidableEq, Repr

/-- The partial message of the request assembler (9.2). -/
structure Partial where
  destination : U8
  tag : U8
  cells : Nat
  expected : Nat
  body : List U8
  deriving DecidableEq, Repr

/-- A place in the reply queue (R176): its number (the model's own), the tag, the body once the result is known, the
boundary at which it was completed, and the cells already placed. -/
structure Reply where
  place : Nat
  tag : U8
  body : Option (List U8)
  completedAt : Nat
  cellsSent : Nat
  deriving DecidableEq, Repr

/-- A completed message that waits to be executed (R175). -/
structure Completed where
  origin : Origin
  place : Option Nat
  body : List U8
  deriving DecidableEq, Repr

/-- A message whose owner takes it at the next boundary (Table 9-4). -/
structure Waiting where
  origin : Origin
  place : Option Nat
  request : Request
  deriving DecidableEq, Repr

/-- The state of the message controller (Table 9-1). -/
structure Msg where
  /-- The node's address, 1 to 62, or none (R191). -/
  address : Option U8
  assembler : Option Partial
  replies : List Reply
  nextPlace : Nat
  holdOpen : Bool
  holdAge : Nat
  staged : List TableEntry
  events : List EventRecord
  /-- The condition flags: bit k for the kind of value k, bit 0 for EVENT_OVERFLOW (R185). -/
  conditions : U64
  node : NodeEntry
  /-- Accepted entries and INPUT SELECTs, and TALKs, that apply at the next boundary, in the order taken. -/
  accepted : List Accepted
  talks : List (Fin 4 × Bool)
  /-- GO, STANDBY, HALT, RESUME, VOICE PLAY and VOICE STOP messages not yet taken, and RESETs with a mode outside their list. -/
  waiting : List Waiting
  /-- RESET messages with mode WARM or SHOW not yet taken. -/
  resets : List Waiting
  completed : Option Completed
  /-- The model's own: the turns of the blocks whose posts of the boundary at hand come late, the turns for the posts that end its
  frame, and those of their posts that are on their way (R184; log entry 2). -/
  late : List Poster
  frameLate : List Poster
  coming : List EventRecord
  deriving DecidableEq, Repr

/-! ### Local port unit (Chapter 10) -/

/-- A debounced line (R189): the taken level (none for NOT_TAKEN, some true for ASSERTED), the candidate and the run. -/
structure Line where
  taken : Option Bool
  candidate : Option Bool
  run : Nat
  deriving DecidableEq, Repr

/-- What paces the serial clocks (R188): stopped, the local interval, or the interval between arrivals. -/
inductive Clocking where
  | stopped | localRate | linkRate
  deriving DecidableEq, Repr

/-- The state of the local port unit (Table 10-1). -/
structure Ports where
  go : Line
  talk : Vector Line 4
  ack : Vector Line 16
  presence : Vector Line 2
  /-- A pressed edge of the GO line was taken at the boundary at hand and the cue engine has not taken it yet. -/
  goPressed : Bool
  /-- The blocks handed in at the boundary at hand and the blocks the outputs play in this frame (R188). -/
  localIn : Vector Block 8
  localOut : Vector Block 24
  clocks : Clocking
  /-- The reset pin is held asserted for a cold reset: the node stands still (R192). -/
  standsStill : Bool
  deriving DecidableEq, Repr

/-- The blocks as they stood at one moment, for the replies of STATUS READ (R43, R154, R171, R186). -/
structure View where
  link : Link
  msg : Msg
  inputs : Vector InputRecord 64
  mix : Mix
  cue : CueEngine
  clip : ClipPlayer
  relay : Relay
  ports : Ports
  deriving DecidableEq, Repr

/-- The state of the node. `boundaries`, `frameOpen`, `due`, `shown` and `shownPass` are the model's own: the count of
boundaries processed since cold reset (R169), whether a frame is being carried whose mix is not yet made, the work of the
boundary at hand that has not been taken yet, and the blocks as they stood at the most recent boundary (R186) and at the end
of the most recent relay pass (R154). `pending` is the queue of commands. -/
structure State where
  pending : List Instr
  boundaries : Nat
  frameOpen : Bool
  due : List Item
  shown : View
  shownPass : View
  link : Link
  msg : Msg
  inputs : Vector InputRecord 64
  mix : Mix
  cue : CueEngine
  clip : ClipPlayer
  relay : Relay
  ports : Ports
  deriving DecidableEq, Repr

/-! ### Cold reset (R192) -/

/-- Table 8-3. -/
def Link.cold : Link :=
  { state := .unlocked, linkTimed := false, upstream := none, counter := 0, reacquire := 0, timerRunning := false
    damaged := 0, hopDrop := 0, reverse := 0, loss := 0, lockedFor := 0, locks := 0
    restoring := false, frame := none, checked := false, slots := Vector.replicate 64 silence, slotValid := Vector.replicate 64 false
    sent := none }

/-- Table 2-7. -/
def InputRecord.cold : InputRecord :=
  { entry := { source := none, spare := none, trim := 900, lossThreshold := 20, restoreThreshold := 200
               autoReturn := false, talkGroup := none }
    state := .idle, active := .primary, forced := false, invalidRun := 0, primaryRun := 0, spareRun := 0
    gateEnd := 0, gateTarget := 0, clip := false, meter := 0, carried := none, outgoing := none, lossCut := false }

/-- Tables 3-6 and 4-4. -/
def BusRecord.cold : BusRecord :=
  { entry := { kind := .unused, gain := 900, mute := false, limiter := false, threshold := 840, release := 200
               stopDuck := false }
    muteFrom := 0, muteEnd := 0, duckFrom := Config.unity, duckEnd := Config.unity, duckState := .idle
    governing := none, limiterGain := Config.unity, limiting := false, limitedNow := false, clip := false, meter := 0 }

/-- Table 3-6: no source; send entry 24 + j on slot j, a local output's slot reads 0. -/
def OutputEntry.cold (o : Fin 40) : OutputEntry :=
  { source := .none, slot := if h : 24 ≤ o.val then ⟨o.val - 24, by omega⟩ else 0 }

/-- Table 4-4. -/
def TalkGroup.cold : TalkGroup :=
  { entry := { input := none, buses := 0, depth := 780, attack := 20, release := 300 }
    latch := false, key := false, live := false }

/-- Table 3-6. -/
def Mix.cold : Mix :=
  { crosspoints := Vector.replicate 64 (Vector.replicate 32 0), buses := Vector.replicate 32 BusRecord.cold
    outputs := table OutputEntry.cold, talk := Vector.replicate 4 TalkGroup.cold, stopStands := false
    busOut := Vector.replicate 32 silence, zoneOut := Vector.replicate 16 silence }

/-- Table 5-5. -/
def CueEngine.cold : CueEngine :=
  { cues := [], standby := none, lastFiring := none, lastCue := none, follow := none, fades := [], held := false
    firings := 0 }

/-- Table 6-7. -/
def Voice.cold : Voice :=
  { state := .idle, playback := none, position := 0, ending := .none, pending := none, gain := 900
    gainEnd := Config.unity, factorEnd := Config.unity, cutFrom := Config.unity, cutElapsed := 0, ranOut := false }

/-- Table 6-7. -/
def ClipPlayer.cold : ClipPlayer :=
  { clips := [], capture := none, voices := Vector.replicate 8 Voice.cold, reserve := 2 }

/-- Table 7-5. -/
def Zone.cold : Zone :=
  { entry := { programme := none, level := 900, callLevel := 900, duckDepth := 700, attack := 50, release := 200 }
    call := none, wasOnAir := false, wasStop := false, duckFrom := Config.unity, duckEnd := Config.unity
    duckState := .idle, latch := false, lamp := false, tail := none }

/-- Table 7-5. -/
def Relay.cold : Relay :=
  { zones := Vector.replicate 16 Zone.cold, calls := [], lastId := 0, accepted := 0, requests := [], reports := []
    stopOnAir := false }

/-- The NODE entry after cold reset (R180). -/
def NodeEntry.cold : NodeEntry :=
  { groups := Vector.replicate 4 0, guard := 500, reserve := 2, holdLimit := 5000, stopDepth := 600
    enables := BitVec.allOnes 64 }

/-- The address the straps give: 1 to 62, none for 0 and 63 (R191). -/
def addressOfStraps (straps : BitVec 6) : Option U8 :=
  if straps = 0 ∨ straps = 63 then none else some (straps.setWidth 8)

/-- Table 9-9 and R180, with the address read from the straps. -/
def Msg.cold (straps : BitVec 6) : Msg :=
  { address := addressOfStraps straps, assembler := none, replies := [], nextPlace := 0, holdOpen := false, holdAge := 0
    staged := [], events := [], conditions := 0, node := NodeEntry.cold, accepted := [], talks := []
    waiting := [], resets := [], completed := none, late := [], frameLate := []
    coming := [] }

/-- A line that has never been taken (R189). -/
def Line.cold : Line := { taken := none, candidate := none, run := 0 }

/-- The local port unit after cold reset (R188 to R190): lamps are the zones' and dark, outputs silent, clocks stopped until
the first boundary. -/
def Ports.cold : Ports :=
  { go := Line.cold, talk := Vector.replicate 4 Line.cold, ack := Vector.replicate 16 Line.cold
    presence := Vector.replicate 2 Line.cold, goPressed := false, localIn := Vector.replicate 8 silence
    localOut := Vector.replicate 24 silence, clocks := .stopped, standsStill := false }

/-- The blocks right after a cold reset (R192). -/
def View.cold (straps : BitVec 6) : View :=
  { link := Link.cold, msg := Msg.cold straps, inputs := Vector.replicate 64 InputRecord.cold, mix := Mix.cold
    cue := CueEngine.cold, clip := ClipPlayer.cold, relay := Relay.cold, ports := Ports.cold }

/-- The node right after a cold reset with the given straps (R192), with an empty queue. -/
def State.cold (straps : BitVec 6) : State :=
  { pending := [], boundaries := 0, frameOpen := false, due := [], shown := View.cold straps
    shownPass := View.cold straps, link := Link.cold, msg := Msg.cold straps
    inputs := Vector.replicate 64 InputRecord.cold, mix := Mix.cold, cue := CueEngine.cold, clip := ClipPlayer.cold
    relay := Relay.cold, ports := Ports.cold }

/-- The machine right after reset. The straps are pins of the board, to which the manual gives no level: DESIGN CHOICE
(log entry 1), they spell 1, the lowest node address. -/
def State.reset : State := State.cold 1

end Sys2Proof.Machine
end

