-- ==== Sys2Proof/Machine/Bytes.lean ====
section
/-! DEFINITION. Bytes on the wire: the field encodings of Table 9-3, the layout of cells and frames (Tables 8-1 and 9-2)
and the frame check (R158). -/

namespace Sys2Proof.Machine

open Sys2Proof

/-! ### Fields (Table 9-3) -/

/-- One byte. -/
def byte (n : Nat) : List U8 := [BitVec.ofNat 8 n]
/-- Two bytes, most significant first. -/
def bytes2 (n : Nat) : List U8 := [BitVec.ofNat 8 (n / 256), BitVec.ofNat 8 n]
/-- Three bytes, most significant first. -/
def bytes3 (n : Nat) : List U8 := BitVec.ofNat 8 (n / 65536) :: bytes2 n
/-- Four bytes, most significant first. -/
def bytes4 (n : Nat) : List U8 := bytes2 (n / 65536) ++ bytes2 n
/-- Eight bytes, most significant first. -/
def bytes8 (n : Nat) : List U8 := bytes4 (n / 4294967296) ++ bytes4 n

/-- NO and OFF are 0, YES and ON are 1. -/
def yesNo (b : Bool) : List U8 := byte b.toNat

/-- An optional one-byte index: 255 when absent. -/
def optIndex {n : Nat} (i : Option (Fin n)) : List U8 := byte (i.elim 255 (·.val))

/-- An optional cue number: 0xFFFFFFFF when absent. -/
def optCue (n : Option Nat) : List U8 := bytes4 (n.getD 4294967295)

/-- A source of an input: NONE 0, LINK 1, LOCAL 2, VOICE 3. -/
def srcBytes : Option Src → List U8
  | none => byte 0 ++ byte 0
  | some (.link i) => byte 1 ++ byte i.val
  | some (.localIn i) => byte 2 ++ byte i.val
  | some (.voice v) => byte 3 ++ byte v.val

/-- A source of an output entry: NONE 0, BUS 1, ZONE 2. -/
def outSourceBytes : OutSource → List U8
  | .none => byte 0 ++ byte 0
  | .bus b => byte 1 ++ byte b.val
  | .zone z => byte 2 ++ byte z.val

/-- A source of a call: CLIP 1, INPUT 2. -/
def callSourceBytes : CallSource → List U8
  | .clip id => byte 1 ++ byte id
  | .input i => byte 2 ++ byte i.val

/-- A fade target: CROSSPOINT 0, BUS_GAIN 1, ZONE_LEVEL 2, VOICE_GAIN 3, then two index bytes. -/
def targetBytes : Target → List U8
  | .crosspoint i b => byte 0 ++ byte i.val ++ byte b.val
  | .busGain b => byte 1 ++ byte b.val ++ byte 0
  | .zoneLevel z => byte 2 ++ byte z.val ++ byte 0
  | .voiceGain v => byte 3 ++ byte v.val ++ byte 0

/-- The value of a result code (Table 9-5). -/
def ResultCode.value (r : ResultCode) : Nat := r.ctorIdx

/-- The value of an event kind (Table 9-8). -/
def EventKind.value (k : EventKind) : Nat := k.ctorIdx + 1

/-- The subject kind and subject of an event record (Table 9-7). -/
def Subject.bytes : Subject → List U8
  | .none => byte 0 ++ bytes4 0
  | .input i => byte 1 ++ bytes4 i.val
  | .bus b => byte 2 ++ bytes4 b.val
  | .cue n => byte 3 ++ bytes4 n
  | .call id => byte 4 ++ bytes4 id
  | .clip id => byte 5 ++ bytes4 id

/-- The list cut or filled with zero bytes to n bytes. -/
def padTo (n : Nat) (bs : List U8) : List U8 := (bs ++ List.replicate n 0).take n

/-- The 16 bytes of an event record (Table 9-7). -/
def EventRecord.bytes (e : EventRecord) : List U8 :=
  byte e.post.kind.value ++ bytes4 e.stamp.toNat ++ e.post.subject.bytes ++ padTo 6 e.post.detail

end Sys2Proof.Machine

namespace Sys2Proof

open Machine

/-! ### Cells (Table 9-2) -/

/-- Bit 7 of the flags: the first cell of a message. -/
def Cell.start (c : Cell) : Bool := c.flags.getLsbD 7
/-- Bit 6 of the flags: the last cell of a message. -/
def Cell.ends (c : Cell) : Bool := c.flags.getLsbD 6
/-- Bits 3 to 0 of the flags: the cell sequence. -/
def Cell.sequence (c : Cell) : Nat := c.flags.toNat % 16
/-- The bytes of the body that count. -/
def Cell.content (c : Cell) : List U8 := c.body.toList.take c.length.toNat

/-- The 32 bytes of a cell. -/
def Cell.bytes (c : Cell) : List U8 := [c.address, c.flags, c.tag, c.length] ++ c.body.toList

/-- A cell of a reply: the node's address as owner, START and END, bits 5 and 4 zero, the sequence, the body filled with
zeros (R177). -/
def Cell.ofReply (owner tag : U8) (first last : Bool) (sequence : Nat) (content : List U8) : Cell :=
  { address := owner
    flags := BitVec.ofNat 8 ((if first then 128 else 0) + (if last then 64 else 0) + sequence % 16)
    tag := tag
    length := BitVec.ofNat 8 content.length
    body := table fun i => content.getD i.val 0 }

/-! ### Frames (Table 8-1) -/

/-- A sample in its three bytes, most significant first. -/
def sampleBytes (x : Sample) : List U8 := bytes3 x.toNat

/-- Bytes 2 to 9,303 of the frame: all that the frame check covers (R158). -/
def Frame.covered (f : Frame) : List U8 :=
  bytes4 f.number.toNat ++ [f.flags, f.hop] ++ bytes8 f.validity.toNat
    ++ f.audio.toList.flatMap (fun slot => slot.toList.flatMap sampleBytes)
    ++ f.request.bytes ++ f.answer.bytes ++ bytes8 f.attention.toNat

/-- The whole frame: the sync marker, the covered bytes, the check value (Table 8-1). -/
def Frame.bytes (f : Frame) : List U8 := [0x5A, 0xC3] ++ f.covered ++ bytes4 f.check.toNat

/-- One bit of the check register: shift left, and add the polynomial when a one leaves it (R158). -/
def crcShift (r : Nat) : Nat := if r < 2147483648 then 2 * r else (2 * r % 4294967296) ^^^ 0x04C11DB7

/-- One byte taken into the check register, most significant bit first (R158). -/
def crcByte (r : Nat) (b : U8) : Nat :=
  crcShift (crcShift (crcShift (crcShift (crcShift (crcShift (crcShift (crcShift (r ^^^ (b.toNat * 16777216)))))))))

/-- The 32-bit check value of a run of bytes: register from 0xFFFFFFFF, inverted at the end (R158). -/
def checkValue (bs : List U8) : U32 := BitVec.ofNat 32 (bs.foldl crcByte 0xFFFFFFFF ^^^ 0xFFFFFFFF)

/-- The frame check passes (R158). -/
def Frame.passes (f : Frame) : Bool := checkValue f.covered == f.check

/-- The DAMAGED flag as received: bit 0 of the flags byte, the other bits are not used (R157). -/
def Frame.damaged (f : Frame) : Bool := f.flags.getLsbD 0

/-- The validity flag of a slot (Table 8-1). -/
def Frame.valid (f : Frame) (s : Fin 64) : Bool := f.validity.getLsbD (63 - s.val)

/-- The samples of a slot as integers (R157). -/
def Frame.slot (f : Frame) (s : Fin 64) : Block := table fun n => (f.audio[s][n]).toInt

/-- A 64-flag field with one flag written; flag k is bit 63 - k (Table 8-1). -/
def setFlag (field : U64) (k : Nat) (value : Bool) : U64 :=
  if value then field ||| BitVec.twoPow 64 (63 - k) else field &&& ~~~BitVec.twoPow 64 (63 - k)

/-- A sample of the mix in the 24 bits of a slot. -/
def toSample (x : Int) : Sample := BitVec.ofInt 24 x

end Sys2Proof
end

