-- ==== Sys2Proof/Machine/Update.lean ====
section
/-! DEFINITION. One way to change each block of the state, and to change one entry of a block's table. -/

namespace Sys2Proof.Machine

open Sys2Proof

/-- Change the link interface. -/
def State.onLink (s : State) (f : Link → Link) : State := { s with link := f s.link }
/-- Change the message controller. -/
def State.onMsg (s : State) (f : Msg → Msg) : State := { s with msg := f s.msg }
/-- Change the input records. -/
def State.onInputs (s : State) (f : Vector InputRecord 64 → Vector InputRecord 64) : State :=
  { s with inputs := f s.inputs }
/-- Change the mix engine. -/
def State.onMix (s : State) (f : Mix → Mix) : State := { s with mix := f s.mix }
/-- Change the cue engine. -/
def State.onCue (s : State) (f : CueEngine → CueEngine) : State := { s with cue := f s.cue }
/-- Change the clip player. -/
def State.onClip (s : State) (f : ClipPlayer → ClipPlayer) : State := { s with clip := f s.clip }
/-- Change the relay controller. -/
def State.onRelay (s : State) (f : Relay → Relay) : State := { s with relay := f s.relay }
/-- Change the local port unit. -/
def State.onPorts (s : State) (f : Ports → Ports) : State := { s with ports := f s.ports }
/-- Change the work left due at the boundary at hand. -/
def State.onDue (s : State) (f : List Item → List Item) : State := { s with due := f s.due }

/-- The blocks as they stand. -/
def State.view (s : State) : View :=
  { link := s.link, msg := s.msg, inputs := s.inputs, mix := s.mix, cue := s.cue, clip := s.clip, relay := s.relay
    ports := s.ports }
/-- Keep the blocks as they stand for the replies of STATUS READ (R186). -/
def State.show (s : State) : State := { s with shown := s.view }
/-- Keep the blocks as they stand at the end of a relay pass (R154). -/
def State.showPass (s : State) : State := { s with shownPass := s.view }

/-- Change one input record. -/
def State.onInput (s : State) (i : Fin 64) (f : InputRecord → InputRecord) : State := s.onInputs fun v => alter v i f
/-- Change one bus record. -/
def State.onBus (s : State) (b : Fin 32) (f : BusRecord → BusRecord) : State :=
  s.onMix fun m => { m with buses := alter m.buses b f }
/-- Change one talk group. -/
def State.onTalk (s : State) (g : Fin 4) (f : TalkGroup → TalkGroup) : State :=
  s.onMix fun m => { m with talk := alter m.talk g f }
/-- Change one voice. -/
def State.onVoice (s : State) (v : Fin 8) (f : Voice → Voice) : State :=
  s.onClip fun c => { c with voices := alter c.voices v f }
/-- Change one zone. -/
def State.onZone (s : State) (z : Fin 16) (f : Zone → Zone) : State :=
  s.onRelay fun r => { r with zones := alter r.zones z f }

end Sys2Proof.Machine
end

