-- ==== Sys2Proof/Machine/Flags.lean ====
section
/-! DEFINITION. Condition flags and the event queue: what every post does (R184), and the details the posting rules name. -/

namespace Sys2Proof.Machine

open Sys2Proof

/-- The condition flag of an event kind: flag k of the 64 conditions for the kind of value k (R185). DESIGN CHOICE (log entry 10):
flag k is bit k of their 8-byte value. -/
def conditionBit (k : EventKind) : U64 := BitVec.twoPow 64 k.value

/-- The condition EVENT_OVERFLOW, bit 0 (R185). -/
def overflowBit : U64 := BitVec.twoPow 64 0

/-- The condition flag of a kind is SET. -/
def Msg.condition (m : Msg) (k : EventKind) : Bool := m.conditions.getLsbD k.value

/-- The kinds that are queued whether enabled or not (Table 9-8). -/
def EventKind.alwaysReported : EventKind → Bool
  | .showStopOnAir | .linkLost | .linkRestored | .holdTimeout | .showReset => true
  | _ => false

/-- The kind is queued when posted: enabled in the NODE table, or always reported (R184). DESIGN CHOICE (log entry 10): flag k of the
event enables (R180) is bit k of their 8-byte value. -/
def Msg.reports (m : Msg) (k : EventKind) : Bool := m.node.enables.getLsbD k.value || k.alwaysReported

/-- A post reaches the message controller: the condition flag is SET; a reported kind is appended to the queue, or, when
the queue holds 32 records, dropped with EVENT_OVERFLOW SET (R184). -/
def Msg.post (m : Msg) (stamp : U32) (p : Post) : Msg :=
  let flagged := { m with conditions := m.conditions ||| conditionBit p.kind }
  if m.reports p.kind then
    if m.events.length < Config.maxEvents then { flagged with events := m.events ++ [{ stamp := stamp, post := p }] }
    else { flagged with conditions := flagged.conditions ||| overflowBit }
  else flagged

/-- Posts of a kind come late: they come from a block whose posts do. A post of the message controller's own is made where it is
kept (R184). -/
def Msg.holdsBack (m : Msg) (k : EventKind) : Bool := k.poster.any m.late.contains

/-- A block sends a post: it reaches the message controller at once, or, when the block's posts of this boundary come late, is
on its way (R184). -/
def Msg.send (m : Msg) (stamp : U32) (p : Post) : Msg :=
  if m.holdsBack p.kind then { m with coming := m.coming ++ [{ stamp := stamp, post := p }] } else m.post stamp p

/-- A block has its turn among the late posts: the oldest of its posts that is on its way reaches the message controller. -/
def Msg.deliver (m : Msg) (b : Poster) : Msg :=
  match m.coming.find? fun e => e.post.kind.poster == some b with
  | some e => { m with coming := m.coming.erase e }.post e.stamp e.post
  | none => m

/-- The posts that come late reach the message controller: by the turns of their blocks, and those that no turn names in the
order in which they were sent (R184). Posts of one block keep their order. -/
def Msg.arrive (m : Msg) : Msg :=
  let turns := m.late.foldl Msg.deliver m
  turns.coming.foldl (fun m e => m.post e.stamp e.post) { turns with late := [], coming := [] }

/-- The condition of a kind is SET, or a post of it is on its way. -/
def Msg.raised (m : Msg) (k : EventKind) : Bool := m.condition k || m.coming.any fun e => e.post.kind == k

/-- Post an event, stamped with the counter of the most recent boundary (R169, R184). -/
def State.post (s : State) (p : Post) : State := s.onMsg fun m => m.send s.link.counter p

/-- The late posts of the boundary, or of its frame's end, reach the message controller (R184). -/
def State.latePosts (s : State) : State := s.onMsg Msg.arrive

/-- Post events in order. -/
def State.postAll (s : State) (ps : List Post) : State := ps.foldl State.post s

/-- Post an event unless its condition flag is already SET: the gating of DAMAGED_FRAME and REVERSE_TRAFFIC (R160, R168). -/
def State.postOnce (s : State) (p : Post) : State := if s.msg.raised p.kind then s else s.post p

/-! ### The details of the posting rules -/

/-- INPUT_LOSS: the source lost and whether a spare is defined (Table 2-6). -/
def lossPost (i : Fin 64) (lost : Side) (spareDefined : Bool) : Post :=
  { kind := .inputLoss, subject := .input i, detail := byte lost.ctorIdx ++ yesNo spareDefined }

/-- INPUT_SUBSTITUTED with cause LOSS (0) or RESTORE (1) (Table 2-6). -/
def substitutedPost (i : Fin 64) (byRestore : Bool) : Post :=
  { kind := .inputSubstituted, subject := .input i, detail := byte byRestore.toNat }

/-- INPUT_RESTORED with cause AUTO_RETURN (0) or RESTORE (1) (Table 2-6). -/
def restoredPost (i : Fin 64) (byRestore : Bool) : Post :=
  { kind := .inputRestored, subject := .input i, detail := byte byRestore.toNat }

/-- INPUT_RETURNED (Table 2-6). -/
def returnedPost (i : Fin 64) : Post := { kind := .inputReturned, subject := .input i, detail := [] }

/-- INPUT_CLIP (R40). -/
def inputClipPost (i : Fin 64) : Post := { kind := .inputClip, subject := .input i, detail := [] }

/-- BUS_CLIP (R59). -/
def busClipPost (b : Fin 32) : Post := { kind := .busClip, subject := .bus b, detail := [] }

/-- LIMITING with the required gain as a level code (R77). -/
def limitingPost (b : Fin 32) (code : LevelCode) : Post :=
  { kind := .limiting, subject := .bus b, detail := bytes2 code.val }

/-- How a GO arrived (R88). -/
inductive Arrival where
  | message | group | broadcast | line | follow
  deriving DecidableEq, Repr

/-- The arrival of a GO message by its origin (R88). -/
def Arrival.ofOrigin : Origin → Arrival
  | .addressed _ => .message
  | .group _ => .group
  | .broadcast => .broadcast

/-- Why a GO without a reply was refused, in the order R89 lists the reasons. -/
inductive GoReason where
  | held | noStandby | guard | range
  deriving DecidableEq, Repr

/-- CUE_FIRED with its cause and the number of actions skipped, in one byte (R93, log entry 10). -/
def cueFiredPost (cue : Nat) (a : Arrival) (skipped : Nat) : Post :=
  { kind := .cueFired, subject := .cue cue, detail := byte a.ctorIdx ++ byte skipped }

/-- GO_UNKNOWN with the number asked for (R89). -/
def goUnknownPost (number : Nat) : Post := { kind := .goUnknown, subject := .cue number, detail := [] }

/-- GO_REFUSED with the way the GO arrived (GROUP 0, BROADCAST 1, LINE 2, FOLLOW 3) and the reason (R89). -/
def goRefusedPost (a : Arrival) (r : GoReason) : Post :=
  { kind := .goRefused, subject := .none, detail := byte (a.ctorIdx - 1) ++ byte r.ctorIdx }

/-- Why an action is skipped, in the order R97 lists the reasons. -/
inductive SkipReason where
  | range | voiceReserved | clipMissing | noSpace | notFound
  deriving DecidableEq, Repr

/-- The kind byte of an action: MOVE 0, PLAY 1, STOP 2, ROUTE 3, CALL 4 (Table 5-2). -/
def Action.kindByte (a : Action) : Nat := a.ctorIdx

/-- ACTION_SKIPPED with position, kind and reason, the position in one byte (R97, log entry 10). -/
def skippedPost (cue position : Nat) (a : Action) (r : SkipReason) : Post :=
  { kind := .actionSkipped, subject := .cue cue, detail := byte position ++ byte a.kindByte ++ byte r.ctorIdx }

/-- FADE_TABLE_FULL with the target, for a cue or for a VOICE STOP (R104). -/
def tableFullPost (owner : Option Nat) (t : Target) : Post :=
  { kind := .fadeTableFull, subject := owner.elim .none .cue, detail := targetBytes t }

/-- CUE_HELD with cause HALT (0) or SHOW_STOP (1) (R107). -/
def heldPost (showStop : Bool) : Post := { kind := .cueHeld, subject := .none, detail := byte showStop.toNat }

/-- CUE_RESUMED (R109). -/
def resumedPost : Post := { kind := .cueResumed, subject := .none, detail := [] }

/-- CAPTURE_DONE with the length (R115). -/
def captureDonePost (c : Capture) : Post :=
  { kind := .captureDone, subject := .clip c.clip, detail := bytes4 c.length }

/-- The reasons of a capture abort (R116). -/
inductive AbortReason where
  | gap | link | asked
  deriving DecidableEq, Repr

/-- CAPTURE_ABORTED with the reason and the samples stored (R116). -/
def captureAbortedPost (c : Capture) (r : AbortReason) : Post :=
  { kind := .captureAborted, subject := .clip c.clip, detail := byte r.ctorIdx ++ bytes4 c.count }

/-- The end state and reason bytes of CALL_ENDED: DONE 0, EXPIRED 1, UNANSWERED 2, CANCELLED 3 with ASKED 0, CUT 1,
ENDED_UNAIRED 2, NO_VOICE 3 (R135). -/
def CallEnd.bytes : CallEnd → List U8
  | .done => byte 0
  | .expired => byte 1
  | .unanswered => byte 2
  | .cancelledAsked => byte 3 ++ byte 0
  | .cancelledCut => byte 3 ++ byte 1
  | .cancelledUnaired => byte 3 ++ byte 2
  | .cancelledNoVoice => byte 3 ++ byte 3

/-- CALL_ENDED; an UNANSWERED call carries the zones still PENDING (R135). -/
def callEndedPost (id : Nat) (e : CallEnd) (unanswered : BitVec 16) : Post :=
  { kind := .callEnded, subject := .call id
    detail := e.bytes ++ if e = .unanswered then bytes2 unanswered.toNat else [] }

/-- CALL_CUT with the id of the stop, or 0 (R145, R151). -/
def callCutPost (id stop : Nat) : Post := { kind := .callCut, subject := .call id, detail := bytes2 stop }

/-- ONAIR_LIMIT (R139). -/
def onairLimitPost (id : Nat) : Post := { kind := .onairLimit, subject := .call id, detail := [] }

/-- SHOW_STOP_ON_AIR with the zone set (R150). -/
def showStopPost (id : Nat) (zones : BitVec 16) : Post :=
  { kind := .showStopOnAir, subject := .call id, detail := bytes2 zones.toNat }

/-- CALL_REFUSED with the result code (R136). -/
def callRefusedPost (r : ResultCode) : Post := { kind := .callRefused, subject := .none, detail := byte r.value }

/-- LINK_LOST with the count of boundaries the link was LOCKED (R163). -/
def linkLostPost (boundaries : Nat) : Post := { kind := .linkLost, subject := .none, detail := bytes4 boundaries }

/-- The port byte of status and events: NONE 0, A 1, B 2 (R171). -/
def portByte : Option Port → List U8
  | none => byte 0
  | some .a => byte 1
  | some .b => byte 2

/-- LINK_RESTORED with the upstream port and whether this is the first lock since cold reset (R165). -/
def linkRestoredPost (up : Option Port) (first : Bool) : Post :=
  { kind := .linkRestored, subject := .none, detail := portByte up ++ yesNo first }

/-- REVERSE_TRAFFIC with the port (R160). -/
def reversePost (p : Port) : Post := { kind := .reverseTraffic, subject := .none, detail := portByte (some p) }

/-- DAMAGED_FRAME with the link state (R168). -/
def damagedPost (l : LinkState) : Post := { kind := .damagedFrame, subject := .none, detail := byte l.ctorIdx }

/-- The reasons of FRAGMENT_DISCARDED, in the order R173 and R174 give them. -/
inductive FragmentReason where
  | cellLength | newStart | sequence | length | link
  deriving DecidableEq, Repr

/-- FRAGMENT_DISCARDED with the reason and the tag (R174). -/
def fragmentPost (r : FragmentReason) (tag : U8) : Post :=
  { kind := .fragmentDiscarded, subject := .none, detail := byte r.ctorIdx ++ [tag] }

/-- REQUEST_OVERRUN with the tag and the first body byte (R176). -/
def overrunPost (tag first : U8) : Post := { kind := .requestOverrun, subject := .none, detail := [tag, first] }

/-- HOLD_TIMEOUT with the number of entries discarded (R183). DESIGN CHOICE (log entry 10): that count takes 2 bytes. -/
def holdTimeoutPost (n : Nat) : Post := { kind := .holdTimeout, subject := .none, detail := bytes2 n }

/-- SHOW_RESET (R110, R187). -/
def showResetPost : Post := { kind := .showReset, subject := .none, detail := [] }

end Sys2Proof.Machine
end

