-- ==== Sys2Proof/Machine/Levels.lean ====
section
/-! DEFINITION. Chapter 1: the level table and its inverse, rounding and saturation, the frame ramp, fades, ducks and
the limiter, each formula once. -/

namespace Sys2Proof.Machine

open Sys2Proof

/-! ### Level codes (R1, R2) -/

/-- Entries 0 to 49 of the level table (R1). -/
def levels0 : List Nat := [
  0, 134, 136, 137, 139, 140, 142, 144, 145, 147,
  149, 151, 152, 154, 156, 158, 159, 161, 163, 165,
  167, 169, 171, 173, 175, 177, 179, 181, 183, 185,
  187, 190, 192, 194, 196, 198, 201, 203, 205, 208,
  210, 213, 215, 218, 220, 223, 225, 228, 230, 233]

/-- Entries 50 to 99 of the level table (R1). -/
def levels50 : List Nat := [
  236, 239, 241, 244, 247, 250, 253, 256, 259, 262,
  265, 268, 271, 274, 277, 280, 284, 287, 290, 294,
  297, 300, 304, 307, 311, 315, 318, 322, 326, 329,
  333, 337, 341, 345, 349, 353, 357, 361, 365, 370,
  374, 378, 383, 387, 391, 396, 401, 405, 410, 415]

/-- Entries 100 to 149 of the level table (R1). -/
def levels100 : List Nat := [
  419, 424, 429, 434, 439, 444, 449, 455, 460, 465,
  471, 476, 482, 487, 493, 498, 504, 510, 516, 522,
  528, 534, 540, 547, 553, 559, 566, 572, 579, 586,
  592, 599, 606, 613, 620, 628, 635, 642, 650, 657,
  665, 672, 680, 688, 696, 704, 712, 721, 729, 737]

/-- Entries 150 to 199 of the level table (R1). -/
def levels150 : List Nat := [
  746, 755, 763, 772, 781, 790, 799, 808, 818, 827,
  837, 847, 856, 866, 876, 886, 897, 907, 918, 928,
  939, 950, 961, 972, 983, 995, 1006, 1018, 1030, 1042,
  1054, 1066, 1078, 1091, 1103, 1116, 1129, 1142, 1155, 1169,
  1182, 1196, 1210, 1224, 1238, 1252, 1267, 1281, 1296, 1311]

/-- Entries 200 to 249 of the level table (R1). -/
def levels200 : List Nat := [
  1326, 1342, 1357, 1373, 1389, 1405, 1421, 1438, 1454, 1471,
  1488, 1505, 1523, 1540, 1558, 1576, 1595, 1613, 1632, 1651,
  1670, 1689, 1709, 1728, 1748, 1769, 1789, 1810, 1831, 1852,
  1874, 1895, 1917, 1939, 1962, 1985, 2008, 2031, 2054, 2078,
  2102, 2126, 2151, 2176, 2201, 2227, 2252, 2279, 2305, 2332]

/-- Entries 250 to 299 of the level table (R1). -/
def levels250 : List Nat := [
  2359, 2386, 2414, 2442, 2470, 2498, 2527, 2557, 2586, 2616,
  2646, 2677, 2708, 2739, 2771, 2803, 2836, 2869, 2902, 2935,
  2969, 3004, 3039, 3074, 3109, 3145, 3182, 3219, 3256, 3294,
  3332, 3370, 3409, 3449, 3489, 3529, 3570, 3611, 3653, 3695,
  3738, 3781, 3825, 3870, 3914, 3960, 4006, 4052, 4099, 4146]

/-- Entries 300 to 349 of the level table (R1). -/
def levels300 : List Nat := [
  4194, 4243, 4292, 4342, 4392, 4443, 4494, 4546, 4599, 4652,
  4706, 4761, 4816, 4871, 4928, 4985, 5043, 5101, 5160, 5220,
  5280, 5341, 5403, 5466, 5529, 5593, 5658, 5723, 5790, 5857,
  5925, 5993, 6063, 6133, 6204, 6276, 6348, 6422, 6496, 6571,
  6648, 6724, 6802, 6881, 6961, 7041, 7123, 7205, 7289, 7373]

/-- Entries 350 to 399 of the level table (R1). -/
def levels350 : List Nat := [
  7459, 7545, 7632, 7721, 7810, 7901, 7992, 8085, 8178, 8273,
  8369, 8466, 8564, 8663, 8763, 8865, 8967, 9071, 9176, 9282,
  9390, 9499, 9609, 9720, 9832, 9946, 10061, 10178, 10296, 10415,
  10536, 10658, 10781, 10906, 11032, 11160, 11289, 11420, 11552, 11686,
  11821, 11958, 12097, 12237, 12378, 12522, 12667, 12813, 12962, 13112]

/-- Entries 400 to 449 of the level table (R1). -/
def levels400 : List Nat := [
  13264, 13417, 13573, 13730, 13889, 14049, 14212, 14377, 14543, 14712,
  14882, 15054, 15229, 15405, 15583, 15764, 15946, 16131, 16318, 16507,
  16698, 16891, 17087, 17285, 17485, 17687, 17892, 18099, 18309, 18521,
  18735, 18952, 19172, 19394, 19618, 19845, 20075, 20308, 20543, 20781,
  21021, 21265, 21511, 21760, 22012, 22267, 22525, 22786, 23049, 23316]

/-- Entries 450 to 499 of the level table (R1). -/
def levels450 : List Nat := [
  23586, 23859, 24136, 24415, 24698, 24984, 25273, 25566, 25862, 26161,
  26464, 26771, 27081, 27394, 27711, 28032, 28357, 28685, 29017, 29354,
  29693, 30037, 30385, 30737, 31093, 31453, 31817, 32185, 32558, 32935,
  33317, 33702, 34093, 34487, 34887, 35291, 35699, 36113, 36531, 36954,
  37382, 37815, 38253, 38695, 39144, 39597, 40055, 40519, 40988, 41463]

/-- Entries 500 to 549 of the level table (R1). -/
def levels500 : List Nat := [
  41943, 42429, 42920, 43417, 43920, 44428, 44943, 45463, 45990, 46522,
  47061, 47606, 48157, 48715, 49279, 49849, 50427, 51011, 51601, 52199,
  52803, 53415, 54033, 54659, 55292, 55932, 56580, 57235, 57898, 58568,
  59246, 59932, 60626, 61328, 62038, 62757, 63483, 64218, 64962, 65714,
  66475, 67245, 68024, 68811, 69608, 70414, 71230, 72054, 72889, 73733]

/-- Entries 550 to 599 of the level table (R1). -/
def levels550 : List Nat := [
  74586, 75450, 76324, 77208, 78102, 79006, 79921, 80846, 81782, 82729,
  83687, 84656, 85637, 86628, 87631, 88646, 89673, 90711, 91761, 92824,
  93899, 94986, 96086, 97199, 98324, 99463, 100614, 101779, 102958, 104150,
  105356, 106576, 107810, 109059, 110321, 111599, 112891, 114198, 115521, 116858,
  118212, 119580, 120965, 122366, 123783, 125216, 126666, 128133, 129616, 131117]

/-- Entries 600 to 649 of the level table (R1). -/
def levels600 : List Nat := [
  132636, 134171, 135725, 137297, 138886, 140495, 142122, 143767, 145432, 147116,
  148820, 150543, 152286, 154049, 155833, 157638, 159463, 161309, 163177, 165067,
  166978, 168912, 170868, 172846, 174848, 176872, 178920, 180992, 183088, 185208,
  187353, 189522, 191717, 193937, 196182, 198454, 200752, 203077, 205428, 207807,
  210213, 212647, 215110, 217601, 220120, 222669, 225247, 227856, 230494, 233163]

/-- Entries 650 to 699 of the level table (R1). -/
def levels650 : List Nat := [
  235863, 238594, 241357, 244152, 246979, 249839, 252732, 255658, 258619, 261613,
  264643, 267707, 270807, 273943, 277115, 280324, 283570, 286853, 290175, 293535,
  296934, 300372, 303850, 307369, 310928, 314528, 318170, 321855, 325582, 329352,
  333165, 337023, 340926, 344874, 348867, 352907, 356993, 361127, 365309, 369539,
  373818, 378146, 382525, 386955, 391435, 395968, 400553, 405191, 409883, 414629]

/-- Entries 700 to 749 of the level table (R1). -/
def levels700 : List Nat := [
  419430, 424287, 429200, 434170, 439198, 444283, 449428, 454632, 459896, 465222,
  470609, 476058, 481571, 487147, 492788, 498494, 504266, 510105, 516012, 521987,
  528032, 534146, 540331, 546588, 552917, 559319, 565796, 572348, 578975, 585679,
  592461, 599322, 606261, 613282, 620383, 627567, 634834, 642185, 649621, 657143,
  664752, 672450, 680236, 688113, 696081, 704141, 712295, 720543, 728886, 737327]

/-- Entries 750 to 799 of the level table (R1). -/
def levels750 : List Nat := [
  745864, 754501, 763238, 772076, 781016, 790060, 799208, 808463, 817824, 827294,
  836874, 846564, 856367, 866283, 876314, 886462, 896726, 907110, 917614, 928239,
  938988, 949861, 960860, 971986, 983241, 994626, 1006143, 1017794, 1029580, 1041502,
  1053562, 1065761, 1078102, 1090586, 1103214, 1115989, 1128912, 1141984, 1155207, 1168584,
  1182115, 1195804, 1209650, 1223658, 1237827, 1252160, 1266660, 1281327, 1296164, 1311173]

/-- Entries 800 to 849 of the level table (R1). -/
def levels800 : List Nat := [
  1326355, 1341714, 1357250, 1372966, 1388865, 1404947, 1421215, 1437672, 1454320, 1471160,
  1488195, 1505428, 1522860, 1540494, 1558332, 1576376, 1594630, 1613095, 1631774, 1650669,
  1669782, 1689118, 1708677, 1728462, 1748477, 1768723, 1789204, 1809922, 1830880, 1852081,
  1873527, 1895221, 1917167, 1939367, 1961823, 1984540, 2007520, 2030766, 2054281, 2078069,
  2102132, 2126473, 2151097, 2176005, 2201202, 2226691, 2252475, 2278557, 2304941, 2331631]

/-- Entries 850 to 899 of the level table (R1). -/
def levels850 : List Nat := [
  2358630, 2385942, 2413570, 2441518, 2469789, 2498388, 2527318, 2556583, 2586187, 2616134,
  2646427, 2677071, 2708070, 2739428, 2771149, 2803238, 2835698, 2868533, 2901749, 2935350,
  2969340, 3003723, 3038505, 3073689, 3109281, 3145284, 3181705, 3218547, 3255816, 3293517,
  3331654, 3370233, 3409258, 3448736, 3488670, 3529067, 3569932, 3611270, 3653086, 3695387,
  3738177, 3781463, 3825251, 3869545, 3914352, 3959678, 4005529, 4051911, 4098830, 4146292]

/-- Entries 900 to 949 of the level table (R1). -/
def levels900 : List Nat := [
  4194304, 4242872, 4292002, 4341701, 4391975, 4442832, 4494278, 4546319, 4598963, 4652216,
  4706086, 4760580, 4815705, 4871469, 4927878, 4984940, 5042663, 5101054, 5160121, 5219873,
  5280316, 5341459, 5403310, 5465878, 5529170, 5593194, 5657960, 5723477, 5789751, 5856793,
  5924612, 5993216, 6062614, 6132816, 6203830, 6275667, 6348336, 6421846, 6496208, 6571430,
  6647524, 6724499, 6802365, 6881132, 6960812, 7041414, 7122950, 7205430, 7288865, 7373266]

/-- Entries 950 to 999 of the level table (R1). -/
def levels950 : List Nat := [
  7458644, 7545011, 7632379, 7720757, 7810160, 7900597, 7992082, 8084625, 8178241, 8272941,
  8368737, 8465642, 8563670, 8662832, 8763143, 8864616, 8967263, 9071099, 9176137, 9282392,
  9389877, 9498607, 9608595, 9719858, 9832408, 9946262, 10061435, 10177940, 10295795, 10415015,
  10535615, 10657612, 10781021, 10905860, 11032144, 11159890, 11289115, 11419837, 11552072, 11685839,
  11821155, 11958037, 12096505, 12236576, 12378269, 12521602, 12666596, 12813268, 12961638, 13111727]

/-- Entries 1000 to 1000 of the level table (R1). -/
def levels1000 : List Nat := [
  13263554]

/-- The fixed internal table of 1,001 entries, round(4,194,304 × 10^((n − 900)/200)) at n from 1 (R1). -/
def levelTable : List Nat :=
  levels0 ++ levels50 ++ levels100 ++ levels150 ++ levels200 ++ levels250 ++
  levels300 ++ levels350 ++ levels400 ++ levels450 ++ levels500 ++ levels550 ++
  levels600 ++ levels650 ++ levels700 ++ levels750 ++ levels800 ++ levels850 ++
  levels900 ++ levels950 ++ levels1000

/-- The linear gain of a level code (R1). -/
def lin (c : LevelCode) : Nat := levelTable.getD c.val 0

/-- A level code field as it is stored: a code above 1000 is taken as 1000 (R1). -/
def clampCode (n : Nat) : LevelCode := if h : n < 1001 then ⟨n, h⟩ else 1000

/-- The inverse lookup: the largest code n from 1 with lin n not above v, or 0 when v is below lin 1 (R2). The table
rises strictly, so the entries not above v are a run at its front. -/
def inv (v : Nat) : LevelCode := clampCode ((levelTable.drop 1).takeWhile (· ≤ v)).length

/-! ### Rounding and saturation (R3) -/

/-- x / d to the nearest integer, ties to even, for a positive d (R3). -/
def roundDiv (x d : Int) : Int :=
  let q := x / d
  let r := x % d
  if 2 * r < d then q
  else if d < 2 * r then q + 1
  else if q % 2 = 0 then q
  else q + 1

/-- round(x / 2^22), the reduction of every product of the sample path (R3). -/
def roundQ (x : Int) : Int := roundDiv x Config.unity

/-- x clamped to the sample range (R3). -/
def saturate (x : Int) : Int := max Config.sampleMin (min Config.sampleMax x)

/-- The clamp changed x (R3). -/
def overflows (x : Int) : Bool := decide (saturate x ≠ x)

/-! ### Ramps and fades (R4, R16 to R18) -/

/-- The frame ramp F(p, q, n) (R4). -/
def ramp (p q : Int) (n : Nat) : Int := p + Int.tdiv ((q - p) * (n + 1)) 48

/-- The live gain of a LINEAR fade from a to b over d frames at elapsed frame k and sample n (R17). -/
def linearGain (a b : Int) (d k n : Nat) : Int := a + Int.tdiv ((b - a) * (48 * k + n + 1)) (48 * d)

/-- The code of a LEVEL fade from ca to cb over d frames at elapsed frame k (R18). -/
def levelAt (ca cb : LevelCode) (d k : Nat) : LevelCode :=
  clampCode ((ca.val : Int) + Int.tdiv (((cb.val : Int) - ca.val) * (k + 1)) d).toNat

/-- The gain a fade starts from: a, or lin(ca) (R105). -/
def Fade.startGain (f : Fade) : Nat :=
  match f.start with
  | .linear a => a
  | .level c => lin c

/-- The live gain a fade's shape gives at elapsed frame k and sample n (R17, R18). -/
def Fade.gainAt (f : Fade) (k n : Nat) : Nat :=
  match f.start with
  | .linear a => (linearGain a (lin f.endCode) f.frames k n).toNat
  | .level c => lin (levelAt c f.endCode f.frames k)

/-- The last value computed for the target: its start value when no frame has been computed (R103, R105). -/
def Fade.lastGain (f : Fade) : Nat :=
  match f.elapsed with
  | 0 => f.startGain
  | k + 1 => f.gainAt k 47

/-- The last value computed as a level code (R103, R110). -/
def Fade.lastCode (f : Fade) : LevelCode :=
  match f.start, f.elapsed with
  | .level c, 0 => c
  | .level c, k + 1 => levelAt c f.endCode f.frames k
  | .linear _, _ => inv f.lastGain

/-- The live gain at sample n of the frame at hand: frozen while HELD (R17, R18, R105). -/
def Fade.live (f : Fade) (held : Bool) (n : Nat) : Nat :=
  if held || f.frames ≤ f.elapsed then f.lastGain else f.gainAt f.elapsed n

/-- The live value of the frame at hand as a level code: code_k of a LEVEL fade, inv of the last sample's gain of a LINEAR
one (R48). -/
def Fade.liveCode (f : Fade) (held : Bool) : LevelCode :=
  if held || f.frames ≤ f.elapsed then f.lastCode
  else
    match f.start with
    | .level c => levelAt c f.endCode f.frames f.elapsed
    | .linear _ => inv (f.gainAt f.elapsed 47)

/-! ### Ducks (R20) -/

/-- The step of a duck move: floor(|unity − depth| / time), at least 1 (R20). -/
def duckStep (depthLin time : Nat) : Nat :=
  max 1 (((Config.unity : Int) - depthLin).natAbs / time)

/-- One move of a duck end value toward its target, by the attack downward and by the release upward; the last move lands
on the target (R20). -/
def duckMove (e target depthLin attack release : Nat) : Nat :=
  if target < e then e - min (duckStep depthLin attack) (e - target)
  else e + min (duckStep depthLin release) (target - e)

/-! ### Limiter (R12, R13) -/

/-- The threshold T of a threshold code, 1 where the rounding gives 0 (R12). -/
def limiterThreshold (c : LevelCode) : Nat := max 1 (roundQ (Config.sampleMax * lin c)).toNat

/-- The required gain of a frame with peak p (R13). -/
def requiredGain (t p : Nat) : Nat := if p ≤ t then Config.unity else t * Config.unity / p

/-- The release step for r frames (R13). -/
def releaseStep (r : Nat) : Nat := Config.unity / r

/-- The frame's gain from its required gain, the held gain and the release (R13). -/
def limiterGain (required held release : Nat) : Nat := min required (min (held + releaseStep release) Config.unity)

/-- The output sample of a limited bus (R14). -/
def limitedSample (t : Int) (g : Nat) : Int := saturate (roundQ (t * g))

end Sys2Proof.Machine
end

