-- ==== Sys2Proof/Machine/Operands.lean ====
section
/-! DEFINITION. The operand checks: quantities are clamped, indices, kinds and named values outside their ranges are
refused with RANGE, which is none here (R22, R46, R50, R55, R63, R82, R131, R136, R175, R180). -/

namespace Sys2Proof.Machine

open Sys2Proof

/-- A quantity taken into lo..hi. -/
def clampTo (lo hi n : Nat) : Nat := max lo (min hi n)

/-- An index of a table of n entries. -/
def index (n : Nat) (b : U8) : Option (Fin n) := if h : b.toNat < n then some ⟨b.toNat, h⟩ else none

/-- An optional index: 255 is absent (Table 9-3). -/
def optionalIndex (n : Nat) (b : U8) : Option (Option (Fin n)) := if b = 255 then some none else (index n b).map some

/-- A YES/NO or ON/OFF value (Table 9-3). -/
def flagValue (b : U8) : Option Bool := if b = 0 then some false else if b = 1 then some true else none

/-- A clip id, 1..128. -/
def clipId (b : U8) : Option Nat := if 1 ≤ b.toNat ∧ b.toNat ≤ 128 then some b.toNat else none

/-- An optional cue number: 0xFFFFFFFF is absent (Table 9-3). -/
def optionalCue (n : U32) : Option Nat := if n = 0xFFFFFFFF then none else some n.toNat

/-- Every item is present. -/
def allSome {α : Type} : List (Option α) → Option (List α)
  | [] => some []
  | none :: _ => none
  | some x :: xs => (allSome xs).map (x :: ·)

/-- The entries of a write with their indices, from the first index up to the table's last entry (R178). -/
def placed {α : Type} (n : Nat) : Nat → List α → List (Fin n × α)
  | _, [] => []
  | i, e :: es => if h : i < n then (⟨i, h⟩, e) :: placed n (i + 1) es else []

/-- A source of an input (Table 9-3, R22). DESIGN CHOICE (log entry 33): the index byte beside the kind NONE is neither checked nor
kept, and reads back as 0. -/
def checkSource (r : RawSource) : Option (Option Src) :=
  if r.kind = 0 then some none
  else if r.kind = 1 then (index 64 r.index).map fun i => some (.link i)
  else if r.kind = 2 then (index 8 r.index).map fun i => some (.localIn i)
  else if r.kind = 3 then (index 8 r.index).map fun i => some (.voice i)
  else none

/-- The two sources of an input agree: no spare without a source, and no spare equal to the source (R22). -/
def sourcesAgree (source spare : Option Src) : Bool :=
  match spare with
  | none => true
  | some x => source.isSome && source != some x

/-- An INPUT entry (R22). -/
def checkInput (r : RawInput) : Option InputEntry := do
  let source ← checkSource r.source
  let spare ← checkSource r.spare
  let auto ← flagValue r.autoReturn
  let group ← optionalIndex 4 r.talkGroup
  if sourcesAgree source spare then
    some { source := source, spare := spare, trim := clampCode r.trim.toNat
           lossThreshold := clampTo 1 255 r.lossThreshold.toNat
           restoreThreshold := clampTo 1 10000 r.restoreThreshold.toNat
           autoReturn := auto, talkGroup := group }
  else none

/-- A bus kind (Table 3-3). -/
def busKind (b : U8) : Option BusKind :=
  if b = 0 then some .unused else if b = 1 then some .foldback else if b = 2 then some .relay
  else if b = 3 then some .send else none

/-- A BUS entry (R50). Limiter is ON or OFF. -/
def checkBus (r : RawBus) : Option BusEntry := do
  let kind ← busKind r.kind
  let mute ← flagValue r.mute
  let limiter ← flagValue r.limiter
  let stopDuck ← flagValue r.stopDuck
  some { kind := kind, gain := clampCode r.gain.toNat, mute := mute, limiter := limiter
         threshold := clampCode r.threshold.toNat, release := clampTo 1 10000 r.release.toNat, stopDuck := stopDuck }

/-- A source of an output entry (Table 9-3, R55). DESIGN CHOICE (log entry 33): the index byte beside the kind NONE is neither
checked nor kept, and reads back as 0. -/
def checkOutSource (r : RawSource) : Option OutSource :=
  if r.kind = 0 then some .none
  else if r.kind = 1 then (index 32 r.index).map .bus
  else if r.kind = 2 then (index 16 r.index).map .zone
  else none

/-- An OUTPUT entry: the slot of a local output is ignored and reads back as 0 (R55). -/
def checkOutput (o : Fin 40) (r : RawOutput) : Option OutputEntry := do
  let source ← checkOutSource r.source
  if o.val < 24 then some { source := source, slot := 0 }
  else
    let slot ← index 64 r.slot
    some { source := source, slot := slot }

/-- A ZONE entry (R131). -/
def checkZone (r : RawZone) : Option ZoneEntry := do
  let programme ← optionalIndex 32 r.programme
  some { programme := programme, level := clampCode r.level.toNat, callLevel := clampCode r.callLevel.toNat
         duckDepth := clampCode r.duckDepth.toNat, attack := clampTo 1 1000 r.attack.toNat
         release := clampTo 1 10000 r.release.toNat }

/-- A TALK entry (R63). -/
def checkTalk (r : RawTalk) : Option TalkEntry := do
  let input ← optionalIndex 64 r.input
  some { input := input, buses := r.buses, depth := clampCode r.depth.toNat, attack := clampTo 1 1000 r.attack.toNat
         release := clampTo 1 10000 r.release.toNat }

/-- A group membership: 0, or a group address 64..95 (R180). -/
def membershipInRange (b : U8) : Bool := b == 0 || (64 ≤ b.toNat && b.toNat ≤ 95)

/-- The NODE entry (R180). -/
def checkNode (r : RawNode) : Option NodeEntry :=
  if membershipInRange r.group0 && membershipInRange r.group1 && membershipInRange r.group2 && membershipInRange r.group3 then
    some { groups := #v[r.group0, r.group1, r.group2, r.group3], guard := min 5000 r.guard.toNat
           reserve := min 4 r.reserve.toNat, holdLimit := clampTo 100 60000 r.holdLimit.toNat
           stopDepth := clampCode r.stopDepth.toNat, enables := r.enables }
  else none

/-- The entries of a window in fill order: every bus of the first input, then of the next (R46). -/
def windowCells (i0 i1 : Fin 64) (b0 b1 : Fin 32) : List (Fin 64 × Fin 32) :=
  ((List.finRange 64).filter fun i => i0 ≤ i && i ≤ i1).flatMap fun i =>
    ((List.finRange 32).filter fun b => b0 ≤ b && b ≤ b1).map fun b => (i, b)

/-- A crosspoint window (R46). -/
def checkWindow (w : RawWindow) : Option (List (Fin 64 × Fin 32)) := do
  let i0 ← index 64 w.inputFirst
  let i1 ← index 64 w.inputLast
  let b0 ← index 32 w.busFirst
  let b1 ← index 32 w.busLast
  if i0 ≤ i1 ∧ b0 ≤ b1 then some (windowCells i0 i1 b0 b1) else none

/-- A fade target (Table 9-3). The second index byte of a kind with one index is not read (log entry 33). -/
def checkTarget (r : RawTarget) : Option Target :=
  if r.kind = 0 then do
    let i ← index 64 r.first
    let b ← index 32 r.second
    some (.crosspoint i b)
  else if r.kind = 1 then (index 32 r.first).map .busGain
  else if r.kind = 2 then (index 16 r.first).map .zoneLevel
  else if r.kind = 3 then (index 8 r.first).map .voiceGain
  else none

/-- A MOVE's shape (Table 5-2). -/
def shape (b : U8) : Option Shape := if b = 0 then some .linear else if b = 1 then some .level else none

/-- A cue action (R82). A ROUTE's two sources are stored as carried. -/
def checkAction : RawAction → Option Action
  | .move t c f sh => do
    let t ← checkTarget t
    let sh ← shape sh
    some (.move t (clampCode c.toNat) (min Config.maxFrames f.toNat) sh)
  | .play v c g l => do
    let v ← index 8 v
    let c ← clipId c
    let l ← flagValue l
    some (.play v c (clampCode g.toNat) l)
  | .stop v f => do
    let v ← index 8 v
    some (.stop v (min Config.maxFrames f.toNat))
  | .route i a b => do
    let i ← index 64 i
    let a ← checkSource a
    let b ← checkSource b
    some (.route i a b)
  | .call z p c k r => do
    let p ← index 4 p
    let c ← clipId c
    let k ← flagValue k
    if z ≠ 0 ∧ p < 3 then some (.call z p c k (min 3 r.toNat)) else none
  | .unknown _ => none

/-- A follow kind (R81). -/
def followKind (b : U8) : Option FollowKind :=
  if b = 0 then some .none else if b = 1 then some .afterWait else if b = 2 then some .afterComplete else none

/-- The largest cue number, in tenths (R81). -/
def maxCueNumber : Nat := 99999

/-- A cue record (R82). -/
def checkCue (r : RawCue) : Option Cue := do
  let follow ← followKind r.follow
  let actions ← allSome (r.actions.map checkAction)
  if r.number.toNat ≤ maxCueNumber ∧ 1 ≤ actions.length ∧ actions.length ≤ Config.maxCueActions then
    some { number := r.number.toNat, follow := follow, wait := min Config.maxFrames r.wait.toNat, actions := actions }
  else none

/-- A call as it is placed: checked for RANGE and clamped (R136). -/
structure CallSpec where
  priority : Fin 4
  zones : BitVec 16
  source : CallSource
  ackRequired : Bool
  repeats : Nat
  waitLimit : Nat
  ackTimeout : Nat
  maxOnAir : Nat
  deriving DecidableEq, Repr

/-- A source of a call (Table 9-3, R136). -/
def checkCallSource (r : RawSource) : Option CallSource :=
  if r.kind = 1 then (clipId r.index).map .clip
  else if r.kind = 2 then (index 64 r.index).map .input
  else none

/-- Repeats as taken: at most 3, and 0 for a live call (R136). -/
def repeatsTaken (source : CallSource) (n : Nat) : Nat :=
  match source with
  | .clip _ => min 3 n
  | .input _ => 0

/-- The fields of a CALL PLACE, less the checks that need the node's state (R136). -/
def checkCall (r : RawCall) : Option CallSpec := do
  let p ← index 4 r.priority
  let src ← checkCallSource r.source
  let k ← flagValue r.ack
  if r.zones ≠ 0 then
    some { priority := p, zones := r.zones, source := src, ackRequired := k, repeats := repeatsTaken src r.repeats.toNat
           waitLimit := clampTo 100 600000 r.waitLimit.toNat, ackTimeout := clampTo 1000 600000 r.ackTimeout.toNat
           maxOnAir := clampTo 1 300000 r.maxOnAir.toNat }
  else none

/-- A cue CALL action as a call: a clip source, a wait limit and an ack timeout of 30,000 frames (R96, R137). -/
def cueCall (zones : BitVec 16) (priority : Fin 4) (clip : Nat) (ack : Bool) (repeats : Nat) : CallSpec :=
  { priority := priority, zones := zones, source := .clip clip, ackRequired := ack, repeats := min 3 repeats
    waitLimit := Config.cueCallLimit, ackTimeout := Config.cueCallLimit, maxOnAir := 1 }

end Sys2Proof.Machine
end

