-- ==== Sys2Proof/Machine/Ops.lean ====
section
/-! DEFINITION. The operations several blocks share: targets and their gains, fade records, follow items, voices, HELD,
replies, and the work left due at the boundary at hand. -/

namespace Sys2Proof.Machine

open Sys2Proof

/-! ### Fade targets (R45, R53, R101, R132) -/

/-- The set code of a target. -/
def State.setCode (s : State) : Target → LevelCode
  | .crosspoint i b => s.mix.crosspoints[i][b]
  | .busGain b => s.mix.buses[b].entry.gain
  | .zoneLevel z => s.relay.zones[z].entry.level
  | .voiceGain v => s.clip.voices[v].gain

/-- Give a target its set code. -/
def State.putCode (s : State) (t : Target) (c : LevelCode) : State :=
  match t with
  | .crosspoint i b => s.onMix fun m => { m with crosspoints := alter m.crosspoints i fun row => put row b c }
  | .busGain b => s.onBus b fun r => { r with entry := { r.entry with gain := c } }
  | .zoneLevel z => s.onZone z fun r => { r with entry := { r.entry with level := c } }
  | .voiceGain v => s.onVoice v fun r => { r with gain := c }

/-- The fade record of a target: the target's fade link is present exactly when there is one (R45, R101). -/
def State.fadeOf (s : State) (t : Target) : Option Fade := s.cue.fades.find? fun f => f.target == t

/-- The live gain of a target at sample n of the frame at hand (R45, R53, R132). -/
def State.liveGain (s : State) (t : Target) (n : Nat) : Nat :=
  match s.fadeOf t with
  | none => lin (s.setCode t)
  | some f => f.live s.cue.held n

/-- The live value of a target as a level code (R48). -/
def State.liveCode (s : State) (t : Target) : LevelCode :=
  match s.fadeOf t with
  | none => s.setCode t
  | some f => f.liveCode s.cue.held

/-- The live gain of a target at the last sample computed before the boundary at hand (R102, R103). -/
def State.lastGain (s : State) (t : Target) : Nat :=
  match s.fadeOf t with
  | none => lin (s.setCode t)
  | some f => f.lastGain

/-! ### Follow items (R99) and fade records (R101 to R106) -/

/-- Close an item of the pending follow. -/
def State.closeItem (s : State) (it : FollowItem) : State :=
  s.onCue fun c => { c with follow := c.follow.map fun f => { f with items := f.items.filter fun x => x != it } }

/-- A playback counts toward the follow of the firing with this serial: it was started by that firing with loop NO (R99). -/
def Playback.counts (p : Playback) (serial : Nat) : Bool := p.serial == serial && !p.loop

/-- A voice holds a playback, running or pending, that counts toward the follow of the firing with this serial. -/
def Voice.counts (v : Voice) (serial : Nat) : Bool :=
  v.playback.any (·.counts serial) || v.pending.any (·.playback.counts serial)

/-- A playback on voice v of the firing with this serial is over: its item closes, unless another playback of the firing
still counts there (R99). -/
def State.closeVoice (s : State) (v : Fin 8) (serial : Nat) : State :=
  match s.cue.follow with
  | some f => if f.serial = serial ∧ s.clip.voices[v].counts serial = false then s.closeItem (.voice v) else s
  | none => s

/-- Remove the fade record of a target, if there is one; its item closes (R99, R106). -/
def State.dropFade (s : State) (t : Target) : State :=
  (s.onCue fun c => { c with fades := c.fades.filter fun f => f.target != t }).closeItem (.fade t)

/-- Take a fade record into the table: in the place of the target's old record, whose item closes when the new record is
not of the same firing (R103), or as one more record (R102). The target's set code becomes the end code. -/
def State.putFade (s : State) (f : Fade) : State :=
  match s.fadeOf f.target with
  | some old =>
    let taken := (s.onCue fun c => { c with fades := c.fades.map fun g => if g.target = f.target then f else g }).putCode
      f.target f.endCode
    if old.serial = f.serial then taken else taken.closeItem (.fade f.target)
  | none => (s.onCue fun c => { c with fades := c.fades ++ [f] }).putCode f.target f.endCode

/-- The fade table has a place for a fade on this target: the target has a record to take over, or fewer than 256 records
exist (R102 to R104). -/
def State.fadeRoom (s : State) (t : Target) : Bool :=
  (s.fadeOf t).isSome || decide (s.cue.fades.length < Config.maxFades)

/-- The record a MOVE or STOP creates or takes over with: from the target's last live value, in the new shape (R102,
R103). At rest that value is the set code. -/
def State.freshFade (s : State) (t : Target) (shape : Shape) (endCode : LevelCode) (frames : Nat) (owner : Option Nat)
    (serial : Nat) : Fade :=
  { target := t
    start := match shape with
      | .linear => .linear (s.lastGain t)
      | .level => .level ((s.fadeOf t).elim (s.setCode t) Fade.lastCode)
    endCode := endCode, frames := frames, elapsed := 0, owner := owner, serial := serial }

/-! ### HELD (R107) -/

/-- HELD becomes SET; CUE_HELD is posted when it was CLEAR (R107). -/
def State.hold (s : State) (showStop : Bool) : State :=
  if s.cue.held then s else (s.onCue fun c => { c with held := true }).post (heldPost showStop)

/-! ### Voices (Chapter 6) -/

/-- A cue voice: below 8 minus the reserve in force (R125). -/
def State.isCueVoice (s : State) (v : Fin 8) : Bool := decide (v.val < 8 - s.clip.reserve)

/-- A voice between the two dividing lines of a pending change of reserve (R125). -/
def State.changesSide (s : State) (v : Fin 8) : Bool :=
  let r := s.clip.reserve
  let t := s.msg.node.reserve
  decide (8 - max r t ≤ v.val ∧ v.val < 8 - min r t)

/-- The record of a STORED clip. -/
def State.storedClip (s : State) (id : Nat) : Option Clip := s.clip.clips.find? fun c => c.id == id && c.stored

/-- The clip player reports the end of a playback to its owner: a cue's closes its follow item, a call's goes to the relay
controller with its cause, a DIRECT one is not reported (R119, R126). -/
def State.reportEnd (s : State) (v : Fin 8) (p : Playback) (cause : EndCause) : State :=
  match p.owner with
  | .cue _ => s.closeVoice v p.serial
  | .direct => s
  | .call id => s.onRelay fun r => { r with reports := r.reports ++ [{ call := id, cause := cause }] }

/-- A voice with no playback; its gain code stays (R119, R130), and so do the level and the transport factor its last frame ended
at (Table 6-3). Table 6-4 keeps no position for it: DESIGN CHOICE (log entry 10), it reads position 0 and loop NO, and its
transport factor stays as it was through the frames in which it is IDLE. -/
def Voice.toIdle (v : Voice) : Voice :=
  { v with state := .idle, playback := none, position := 0, ending := .none, pending := none
           cutFrom := Config.unity, cutElapsed := 0, ranOut := false }

/-- Start a playback on a voice (R120): position 0, the gain code at rest, full transport. -/
def State.startVoice (s : State) (v : Fin 8) (p : Playback) (gain : LevelCode) : State :=
  (s.dropFade (.voiceGain v)).onVoice v fun r =>
    { state := .playing, playback := some p, position := 0, ending := .none, pending := none, gain := gain
      gainEnd := r.gainEnd, factorEnd := Config.unity, cutFrom := Config.unity, cutElapsed := 0, ranOut := false }

/-- Restart a busy voice (R121): the outgoing playback goes into its 4-frame cut-out at the level it had at the last sample of
the previous frame, whatever a write or a MOVE has set at this boundary (R123), and the new one is held as the pending start; a
pending start it replaces never begins. -/
def State.restartVoice (s : State) (v : Fin 8) (p : Playback) (gain : LevelCode) : State :=
  let old := s.clip.voices[v]
  let cut := (s.dropFade (.voiceGain v)).onVoice v fun r =>
    { r with gain := inv r.gainEnd, state := .stopping, ending := .cutOut
             cutFrom := if r.ending = .cutOut then r.cutFrom else r.factorEnd
             cutElapsed := if r.ending = .cutOut then r.cutElapsed else 0
             pending := some { playback := p, gain := gain } }
  match old.pending with
  | some q => cut.closeVoice v q.playback.serial
  | none => cut

/-- Perform a PLAY on a voice: it begins on an IDLE voice, and restarts any other (R120, R121). -/
def State.playVoice (s : State) (v : Fin 8) (p : Playback) (gain : LevelCode) : State :=
  if s.clip.voices[v].state = .idle then s.startVoice v p gain else s.restartVoice v p gain

/-- End a voice at this boundary with no ramp: IDLE, its fade record removed, its playback reported (R122). With a gain code
given the voice is left at it. -/
def State.silenceVoice (s : State) (v : Fin 8) (gain : Option LevelCode) : State :=
  let old := s.clip.voices[v]
  let s1 := (s.dropFade (.voiceGain v)).onVoice v fun r => { r.toIdle with gain := gain.getD r.gain }
  match old.playback with
  | some p => s1.reportEnd v p .ended
  | none => s1

/-- A STOP of a playing voice (R122, R104): a LINEAR fade toward code 0, or, with 0 frames or no room in the fade table,
an end at this boundary that leaves code 0, the end code of a STOP (R19, R102). -/
def State.fadeVoiceOut (s : State) (v : Fin 8) (frames : Nat) (owner : Option Nat) (serial : Nat) : State :=
  if frames = 0 then s.silenceVoice v (some 0)
  else if s.fadeRoom (.voiceGain v) then
    (s.putFade (s.freshFade (.voiceGain v) .linear 0 frames owner serial)).onVoice v fun r =>
      { r with state := .stopping, ending := .stopFade }
  else (s.post (tableFullPost owner (.voiceGain v))).silenceVoice v (some 0)

/-- Perform a STOP on a voice according to its state (R122). A PAUSED voice ends at once: with 0 frames its gain code becomes
the end code 0 (R19), and with frames, which then are not used, it stays (log entry 28). -/
def State.stopVoice (s : State) (v : Fin 8) (frames : Nat) (owner : Option Nat) (serial : Nat) : State :=
  let r := s.clip.voices[v]
  match r.state, r.ending with
  | .idle, _ => s
  | .paused, _ => s.silenceVoice v (if frames = 0 then some 0 else none)
  | .stopping, .cutOut =>
    let dropped := s.onVoice v fun r => { r with pending := none }
    match r.pending with
    | some q => dropped.closeVoice v q.playback.serial
    | none => dropped
  | .stopping, .callCut => s
  | _, _ => s.fadeVoiceOut v frames owner serial

/-- A STOP fade on a voice has been taken off by a write or by a MOVE: the voice plays on (R123; for a MOVE log entry 12). -/
def Voice.unstop (v : Voice) : Voice :=
  if v.ending = .stopFade then { v with ending := .none, state := if v.state = .stopping then .playing else v.state } else v

/-- What a voice does as its playback is over: it begins its pending start, in PAUSED when the show is HELD and it is a cue voice
(R121, R127), or becomes IDLE, a STOP fade's record removed (R119, R122). HELD is read as it stands when the end is taken, before the
requests of the boundary (log entry 29). -/
def State.leaveVoice (s : State) (v : Fin 8) : State :=
  let old := s.clip.voices[v]
  match old.pending with
  | some q =>
    let begun := s.startVoice v q.playback q.gain
    if s.cue.held && s.isCueVoice v then begun.onVoice v fun r => { r with state := .paused, factorEnd := 0 } else begun
  | none => (if old.ending = .stopFade then s.dropFade (.voiceGain v) else s).onVoice v Voice.toIdle

/-- The outgoing playback of a voice is over: the voice leaves it, and the end is reported (R119). -/
def State.endVoice (s : State) (v : Fin 8) (cause : EndCause) : State :=
  match s.clip.voices[v].playback with
  | some p => (s.leaveVoice v).reportEnd v p cause
  | none => s.leaveVoice v

/-- Call start: the relay controller starts an IDLE call voice at LC 900, loop NO (R126). -/
def State.callStart (s : State) (v : Fin 8) (clip call : Nat) : State :=
  s.startVoice v { clip := clip, loop := false, owner := .call call, serial := 0 } 900

/-- Call stop: a one-frame cut; the voice becomes IDLE at the next boundary (R126). -/
def State.callStop (s : State) (v : Fin 8) : State :=
  s.onVoice v fun r => { r with state := .stopping, ending := .callCut }

/-- Call take: the playback of a busy call voice is replaced from sample 0 and reported with cause TAKEN (R126). -/
def State.callTake (s : State) (v : Fin 8) (clip call : Nat) : State :=
  let old := s.clip.voices[v]
  let taken := s.callStart v clip call
  match old.playback with
  | some p => taken.reportEnd v p .taken
  | none => taken

/-! ### Validity of sources (R24 to R26) -/

/-- The source is valid in the frame at hand. -/
def State.sourceValid (s : State) : Src → Bool
  | .link i => s.link.slotValid[i]
  | .localIn n => s.ports.presence[(⟨n.val / 4, by omega⟩ : Fin 2)].taken == some true
  | .voice _ => true

/-! ### Replies (R176) -/

/-- A result: its code and the data of the reply. -/
structure Result where
  code : ResultCode
  data : List U8 := []
  deriving DecidableEq, Repr

/-- An operation that carries out a message. -/
abbrev Handler := State → Result × State

/-- A refusal changes nothing (R175). -/
def refuse (code : ResultCode) : Handler := fun s => ({ code := code }, s)

/-- The bytes of a reply body: the result code, then the data; a refused message's reply carries its code alone (R177). -/
def Result.bytes (r : Result) : List U8 := if r.code = .ok then byte r.code.value ++ r.data else byte r.code.value

/-- What taking a place in the reply queue gives: nothing when the message must be discarded, otherwise the place, or none
for a message without a reply. -/
abbrev Placing := Option (Option Nat)

/-- A message completes: an addressed one takes a place at the tail of the reply queue, and is discarded with
REQUEST_OVERRUN when all four are taken (R176). -/
def State.takePlace (s : State) (o : Origin) (first : U8) : Placing × State :=
  match o with
  | .addressed tag =>
    if s.msg.replies.length < Config.maxReplies then
      (some (some s.msg.nextPlace),
        s.onMsg fun m => { m with nextPlace := m.nextPlace + 1
                                  replies := m.replies ++ [{ place := m.nextPlace, tag := tag, body := none
                                                             completedAt := 0, cellsSent := 0 }] })
    else (none, s.post (overrunPost tag first))
  | _ => (some none, s)

/-- Write a result into its place, if the place still exists (R176). -/
def State.answer (s : State) (place : Option Nat) (r : Result) : State :=
  match place with
  | none => s
  | some p =>
    s.onMsg fun m => { m with replies := m.replies.map fun q =>
      if q.place = p then { q with body := some r.bytes, completedAt := s.boundaries } else q }

/-- The message is for this node: its own address, broadcast, or a group it belongs to (R172). -/
def State.takes (s : State) (o : Origin) : Bool :=
  match o with
  | .addressed _ => s.msg.address.isSome
  | .broadcast => true
  | .group a => 64 ≤ a.toNat && s.msg.node.groups.toList.contains a

/-- Longest prefix of whole items of at most n bytes (R177). -/
def fitting : Nat → List (List U8) → List (List U8)
  | _, [] => []
  | n, x :: xs => if x.length ≤ n then x :: fitting (n - x.length) xs else []

/-- A two-byte count and then the leading items that fit in n bytes with it (R177, R179). -/
def counted (n : Nat) (items : List (List U8)) : List U8 :=
  let kept := fitting (n - 2) items
  bytes2 kept.length ++ kept.flatten

/-! ### The work of the boundary at hand -/

/-- The item is still to be taken at the boundary at hand. -/
def State.isDue (s : State) (it : Item) : Bool := s.due.contains it

end Sys2Proof.Machine
end

