-- ==== Sys2Proof/Machine/Inputs.lean ====
section
/-! DEFINITION. The input supervisor (Chapter 2): run counters, the loss, return and restore transitions, source writes,
INPUT SELECT, the carried source, and the gate targets. -/

namespace Sys2Proof.Machine

open Sys2Proof

/-- The source the active side names. -/
def InputRecord.activeSource (r : InputRecord) : Option Src :=
  match r.active with
  | .primary => r.entry.source
  | .spare => r.entry.spare

/-- An optional source is present and valid. -/
def validSource (valid : Src → Bool) (x : Option Src) : Bool := x.any valid

/-- One count of a run: up by 1, stopping at 65,535 (R27). -/
def bump (n : Nat) : Nat := min Config.runStop (n + 1)

/-- A run after a frame: bumped while it goes on, 0 when broken (R27). -/
def run (goesOn : Bool) (n : Nat) : Nat := if goesOn then bump n else 0

/-- Count this boundary's frame; an IDLE input's counters are held at 0 (R27, R31). -/
def InputRecord.count (valid : Src → Bool) (r : InputRecord) : InputRecord :=
  if r.state = .idle then { r with invalidRun := 0, primaryRun := 0, spareRun := 0 }
  else
    { r with
      primaryRun := run (validSource valid r.entry.source) r.primaryRun
      spareRun := run (validSource valid r.entry.spare) r.spareRun
      invalidRun := run (!validSource valid r.activeSource) r.invalidRun }

/-- Change the state of a record to an active side. The invalid run keeps its count when the active source stays, and is
else 0 or 1 by the new source's validity in this frame (R27). -/
def InputRecord.moveTo (valid : Src → Bool) (r : InputRecord) (st : SupState) (side : Side) : InputRecord :=
  let x := match side with
    | .primary => r.entry.source
    | .spare => r.entry.spare
  { r with
    state := st
    active := side
    invalidRun := if r.active = side then r.invalidRun else if validSource valid x then 0 else 1 }

/-- What a transition gives: the record reached and the event it posts. -/
abbrev Transition := Option (InputRecord × Post)

/-- The invalid run has reached the loss threshold. -/
def InputRecord.failed (r : InputRecord) : Bool := decide (r.entry.lossThreshold ≤ r.invalidRun)

/-- An input in PRIMARY reaches its loss threshold: to SPARE when the spare is defined and valid, else to LOST (R28). -/
def InputRecord.primaryLoss (valid : Src → Bool) (i : Fin 64) (r : InputRecord) : Transition :=
  if r.state = .primary ∧ r.failed then
    if validSource valid r.entry.spare then
      some ({ r.moveTo valid .spare .spare with lossCut := true }, substitutedPost i false)
    else some ({ r.moveTo valid .lost .primary with lossCut := true }, lossPost i .primary r.entry.spare.isSome)
  else none

/-- An input in SPARE reaches its loss threshold: to PRIMARY when the primary is valid, else to LOST (R29 cases 1, 2). -/
def InputRecord.spareLoss (valid : Src → Bool) (i : Fin 64) (r : InputRecord) : Transition :=
  if r.state = .spare ∧ r.failed then
    if validSource valid r.entry.source then
      some ({ r.moveTo valid .primary .primary with lossCut := true, forced := false }, returnedPost i)
    else
      some ({ r.moveTo valid .lost .primary with lossCut := true, forced := false },
        lossPost i .spare r.entry.spare.isSome)
  else none

/-- An unforced input in SPARE with auto-return YES, its spare below the loss threshold, whose primary has been valid for the
restore threshold, goes back (R29 case 3). -/
def InputRecord.autoReturn (valid : Src → Bool) (i : Fin 64) (r : InputRecord) : Transition :=
  if r.state = .spare ∧ r.failed = false ∧ r.entry.autoReturn ∧ r.forced = false
      ∧ r.entry.restoreThreshold ≤ r.primaryRun then
    some ({ r.moveTo valid .primary .primary with forced := false }, restoredPost i false)
  else none

/-- A LOST input takes back its primary, or else its spare, when its valid run reaches the restore threshold (R30). -/
def InputRecord.restore (valid : Src → Bool) (i : Fin 64) (r : InputRecord) : Transition :=
  if r.state = .lost then
    if r.entry.restoreThreshold ≤ r.primaryRun then some (r.moveTo valid .primary .primary, restoredPost i true)
    else if r.entry.spare.isSome ∧ r.entry.restoreThreshold ≤ r.spareRun then
      some (r.moveTo valid .spare .spare, substitutedPost i true)
    else none
  else none

/-- The transition an input makes at a boundary, at most one (R27 to R30). -/
def InputRecord.transition (valid : Src → Bool) (i : Fin 64) (r : InputRecord) : Transition :=
  (r.primaryLoss valid i).orElse fun _ =>
  (r.spareLoss valid i).orElse fun _ =>
  (r.autoReturn valid i).orElse fun _ => r.restore valid i

/-- Take a transition of one input, if it is there: store the record and post the event (R41). -/
def State.takeTransition (s : State) (i : Fin 64) (t : Transition) : State :=
  match t with
  | some (r, p) => (s.onInput i fun _ => r).post p
  | none => s

/-- Count the boundary's frame for every input (R27). -/
def State.countInputs (s : State) : State :=
  s.onInputs fun v => table fun i => v[i].count s.sourceValid

/-- Evaluate the transitions of every input (R28 to R30). DESIGN CHOICE (log entry 31): their events of one boundary are posted by
ascending input. -/
def State.takeTransitions (s : State) : State :=
  (List.finRange 64).foldl (fun s i => s.takeTransition i (s.inputs[i].transition s.sourceValid i)) s

/-- A write of an input entry applies: a change of source or spare resets the supervision, any other write keeps it (R34,
R35). An input left IDLE holds and reports PRIMARY as its active side (log entry 30). -/
def InputRecord.write (e : InputEntry) (r : InputRecord) : InputRecord :=
  if e.source = r.entry.source ∧ e.spare = r.entry.spare then { r with entry := e }
  else
    { r with entry := e, state := if e.source.isSome then .primary else .idle, active := .primary, forced := false
             invalidRun := 0, primaryRun := 0, spareRun := 0 }

/-- An accepted INPUT SELECT applies before the boundary's counting: the chosen source becomes active; it is dropped when that
source no longer exists. A change of active source starts its invalid run afresh (R37). -/
def InputRecord.select (choice : Side) (r : InputRecord) : InputRecord :=
  match choice with
  | .primary =>
    if r.entry.source.isSome then
      { r with state := .primary, active := .primary, forced := false
               invalidRun := if r.active = .primary then r.invalidRun else 0 }
    else r
  | .spare =>
    if r.entry.spare.isSome then
      { r with state := .spare, active := .spare, forced := true
               invalidRun := if r.active = .spare then r.invalidRun else 0 }
    else r

/-- The source the state of a record carries: none in LOST and IDLE (R32). -/
def InputRecord.stateSource (r : InputRecord) : Option Src :=
  match r.state with
  | .primary => r.entry.source
  | .spare => r.entry.spare
  | .idle | .lost => none

/-- Fix the carried source of the frame at hand: a change is a one-frame crossfade, or a hard cut after a loss transition and
into an invalid source (R33). A change into no source is a hard cut too, but for a write of source NONE, of which R33 says that
it cuts and R34 that it fades the old source out: it does what `Config.noneFades` says (log entry 8). -/
def InputRecord.carry (valid : Src → Bool) (r : InputRecord) : InputRecord :=
  let next := r.stateSource
  let crossfade := next != r.carried && !r.lossCut
    && (validSource valid next || (r.state == .idle && Config.noneFades))
  { r with carried := next, outgoing := if crossfade then some r.carried else none }

/-- Fix the carried source of every input (R33). -/
def State.carryInputs (s : State) : State := s.onInputs fun v => table fun i => v[i].carry s.sourceValid

/-- Set every gate target from the keys of the boundary (R39). DESIGN CHOICE (log entry 37): an input that names no group has its
gate opened at each boundary, the first after cold reset and the IDLE input included, so that a first group given to it later finds
the gate open and closes it by the ramp of R7. -/
def State.setGates (s : State) : State :=
  s.onInputs fun v => table fun i =>
    { v[i] with gateTarget := match v[i].entry.talkGroup with
        | none => Config.unity
        | some g => if s.mix.talk[g].key then Config.unity else 0 }

/-- At the opening of a boundary no loss transition has been made yet. -/
def State.clearLossCuts (s : State) : State := s.onInputs fun v => table fun i => { v[i] with lossCut := false }

/-- A cue ROUTE: a write of the two sources that keeps the other fields (R22, R96). -/
def State.route (s : State) (i : Fin 64) (source spare : Option Src) : State :=
  s.onInput i fun r => r.write { r.entry with source := source, spare := spare }

/-- INPUT SELECT, checked at once; it applies at the next boundary (R36). -/
def selectInput (input choice : U8) : Handler := fun s =>
  match index 64 input with
  | none => refuse .range s
  | some i =>
    if 2 ≤ choice.toNat then refuse .range s
    else
      let r := s.inputs[i]
      let side : Side := if choice = 0 then .primary else .spare
      let chosen := match side with
        | .primary => r.entry.source
        | .spare => r.entry.spare
      if r.entry.spare = none then refuse .range s
      else if validSource s.sourceValid chosen = false then refuse .invalidSource s
      else
        ({ code := .ok, data := byte r.state.ctorIdx ++ byte r.active.ctorIdx },
          s.onMsg fun m => { m with accepted := m.accepted ++ [.select i side] })

end Sys2Proof.Machine
end

