-- ==== Sys2Proof/Machine/Foldback.lean ====
section
/-! DEFINITION. Talk groups and the ducks of foldback buses (Chapter 4), the mute factors (R54), and the set-up of a bus
whose entry is written (R52, R76). -/

namespace Sys2Proof.Machine

open Sys2Proof

/-! ### Talk groups -/

/-- Apply the accepted TALKs in the order taken (R65). -/
def State.applyTalks (s : State) : State :=
  (s.msg.talks.foldl (fun s x => s.onTalk x.1 fun g => { g with latch := x.2 }) s).onMsg fun m => { m with talks := [] }

/-- The level of a line as it is handed on: NOT_TAKEN counts as RELEASED (R190). -/
def Line.asserted (l : Line) : Bool := l.taken == some true

/-- The talk input of a group lets it duck: absent, or in PRIMARY or SPARE (R67). -/
def State.talkInputLive (s : State) (x : Option (Fin 64)) : Bool :=
  match x with
  | none => true
  | some i => s.inputs[i].state = .primary || s.inputs[i].state = .spare

/-- Form the key of every group, from its line or its latch, and whether it is live (R66, R67). -/
def State.formKeys (s : State) : State :=
  s.onMix fun m => { m with talk := table fun g =>
    let t := m.talk[g]
    let key := s.ports.talk[g].asserted || t.latch
    { t with key := key, live := key && s.talkInputLive t.entry.input } }

/-- TALK, checked at once; it applies at the next boundary (R64). The reply: taken line level (ASSERTED 0, RELEASED 1), latch
and key. -/
def talkMessage (group setting : U8) : Handler := fun s =>
  match index 4 group, flagValue setting with
  | some g, some on =>
    ({ code := .ok
       data := byte (!s.ports.talk[g].asserted).toNat ++ yesNo s.mix.talk[g].latch ++ yesNo s.mix.talk[g].key },
      s.onMsg fun m => { m with talks := m.talks ++ [(g, on)] })
  | _, _ => refuse .range s

/-! ### Bus ducks -/

/-- The depth, attack and release a duck source brings (Table 4-2). -/
structure DuckParams where
  depthLin : Nat
  attack : Nat
  release : Nat
  deriving DecidableEq, Repr

/-- The current settings of a duck source (R70, Table 4-2). -/
def State.duckParams (s : State) : DuckSource → DuckParams
  | .stop => { depthLin := lin s.msg.node.stopDepth, attack := 1, release := Config.stopRelease }
  | .talk g =>
    let e := s.mix.talk[g].entry
    { depthLin := lin e.depth, attack := e.attack, release := e.release }

/-- The active duck sources of a FOLDBACK bus, in the order in which they are chosen when none governs: the show-stop source,
then the talk groups from the lowest (R68, R70). -/
def State.duckSources (s : State) (b : Fin 32) : List DuckSource :=
  (if s.mix.buses[b].entry.stopDuck && s.mix.stopStands then [.stop] else []) ++
    ((List.finRange 4).filter fun g => s.mix.talk[g].live && s.mix.talk[g].entry.buses.getLsbD b.val).map .talk

/-- The source that governs: of those with the lowest depth the one that governed before, else the first (R70). -/
def chooseGoverning (depth : DuckSource → Nat) (before : Option DuckSource) (active : List DuckSource) : Option DuckSource :=
  let deepest := active.filter fun x => active.all fun y => depth x ≤ depth y
  match before with
  | some g => if deepest.contains g then some g else deepest.head?
  | none => deepest.head?

/-- The duck state after a move (Table 4-3). -/
def duckStateOf (e target : Nat) (active : Bool) : DuckState :=
  if target < e then .attacking else if e < target then .releasing else if active then .heldDown else .idle

/-- Move the duck of one bus (R70 to R72); a bus that is not FOLDBACK stays at unity (R51). -/
def State.moveDuck (s : State) (b : Fin 32) : BusRecord :=
  let r := s.mix.buses[b]
  if r.entry.kind = .foldback then
    let active := s.duckSources b
    let governing := match active with
      | [] => r.governing
      | _ => chooseGoverning (fun x => (s.duckParams x).depthLin) r.governing active
    let target := match active, governing with
      | _ :: _, some g => (s.duckParams g).depthLin
      | _, _ => Config.unity
    let e := match governing with
      | some g =>
        let p := s.duckParams g
        duckMove r.duckEnd target p.depthLin p.attack p.release
      | none => r.duckEnd
    { r with duckFrom := r.duckEnd, duckEnd := e, governing := governing
             duckState := duckStateOf e target (!active.isEmpty) }
  else { r with duckFrom := Config.unity, duckEnd := Config.unity, governing := none, duckState := .idle }

/-- Fix the mute factor's ramp for the frame: from its end value to 0 when muted, to unity when not; an UNUSED bus holds 0
(R52, R54). -/
def BusRecord.moveMute (r : BusRecord) : BusRecord :=
  if r.entry.kind = .unused then { r with muteFrom := 0, muteEnd := 0 }
  else { r with muteFrom := r.muteEnd, muteEnd := if r.entry.mute then 0 else Config.unity }

/-- Move the duck and the mute factor of every bus for the frame that begins (R54, R71). -/
def State.moveBuses (s : State) : State :=
  s.onMix fun m => { m with buses := table fun b => (s.moveDuck b).moveMute }

/-- A write of a bus entry applies: a change of kind sets the bus up anew (R52), and an OFF limiter holds unity gain (R75,
R76). DESIGN CHOICE (log entry 34): a change of kind to or from FOLDBACK clears the record of limiting in the most recent frame. -/
def BusRecord.write (e : BusEntry) (r : BusRecord) : BusRecord :=
  let set : BusRecord :=
    if e.kind = r.entry.kind then { r with entry := e }
    else
      let mute := if e.kind = .unused ∨ r.entry.kind = .unused then 0 else r.muteEnd
      if e.kind = .foldback ∨ r.entry.kind = .foldback then
        { r with entry := e, muteEnd := mute, limiterGain := Config.unity, duckFrom := Config.unity
                 duckEnd := Config.unity, duckState := .idle, governing := none, limitedNow := false }
      else { r with entry := e, muteEnd := mute }
  if e.limiter then set else { set with limiterGain := Config.unity }

end Sys2Proof.Machine
end

