-- ==== Sys2Proof/Machine/Mix.lean ====
section
/-! DEFINITION. The mix of one frame (Chapter 1, R58): voices, inputs, buses, limiters and zones, and what the end of the
frame leaves in the meters, the flags, the fades and the voices. -/

namespace Sys2Proof.Machine

open Sys2Proof

/-! ### Voices (R16, R119) -/

/-- The transport factor of a voice at sample n (R16). -/
def Voice.factor (v : Voice) (n : Nat) : Int :=
  match v.state, v.ending with
  | .idle, _ => 0
  | .stopping, .cutOut => linearGain v.cutFrom 0 Config.cutOutFrames v.cutElapsed n
  | .stopping, .callCut => ramp v.factorEnd 0 n
  | .paused, _ => ramp v.factorEnd 0 n
  | _, _ => ramp v.factorEnd Config.unity n

/-- The voice moves through its clip in this frame: not when IDLE, nor when PAUSED past its ramp (R127). -/
def Voice.advances (v : Voice) : Bool :=
  match v.state with
  | .idle => false
  | .paused => v.factorEnd != 0
  | _ => true

/-- The clip sample at n samples past a position: wrapped for a loop, 0 past the end otherwise (R119). -/
def clipSample (samples : List Sample) (length : Nat) (loop : Bool) (position n : Nat) : Int :=
  if loop then (samples.getD ((position + n) % length) 0).toInt
  else if position + n < length then (samples.getD (position + n) 0).toInt
  else 0

/-- The record of a clip, whatever its state. -/
def State.clipRecord (s : State) (id : Nat) : Option Clip := s.clip.clips.find? fun c => c.id == id

/-- The output v(n) of a voice over the frame at hand (R16, R129). -/
def State.voiceBlock (s : State) (v : Fin 8) : Block :=
  let r := s.clip.voices[v]
  match r.playback.bind fun p => (s.clipRecord p.clip).map fun c => (p, c) with
  | none => silence
  | some (p, c) =>
    if r.advances then
      let samples := c.samples.drop r.position
      table fun n =>
        let x := if p.loop then clipSample c.samples c.length true r.position n.val
          else clipSample samples (c.length - r.position) false 0 n.val
        let vg := roundQ (s.liveGain (.voiceGain v) n.val * r.factor n.val)
        saturate (roundQ (x * vg))
    else silence

/-- A voice after the frame: the level its gain has reached, its position, whether its clip has run out, and its factor
(R119, R121). -/
def State.voiceAfter (s : State) (v : Fin 8) : Voice :=
  let r : Voice := { s.clip.voices[v] with gainEnd := s.liveGain (.voiceGain v) 47 }
  let length := ((r.playback.bind fun p => s.clipRecord p.clip).map Clip.length).getD 0
  let loop := r.playback.any (·.loop)
  if r.state = .idle then r
  else
    { r with
      position := if r.advances then (if loop then (r.position + 48) % length else min length (r.position + 48)) else r.position
      ranOut := r.ranOut || (r.advances && !loop && decide (length ≤ r.position + 48))
      factorEnd := (r.factor 47).toNat
      cutElapsed := if r.ending = .cutOut then r.cutElapsed + 1 else r.cutElapsed }

/-! ### Inputs (R5 to R8) -/

/-- The frame's audio as the mix reads it: one block for each source. -/
structure Sources where
  link : Vector Block 64
  localIn : Vector Block 8
  voice : Vector Block 8
  deriving DecidableEq, Repr

/-- The block of a source. -/
def Sources.block (a : Sources) : Src → Block
  | .link i => a.link[i]
  | .localIn n => a.localIn[n]
  | .voice v => a.voice[v]

/-- The sources of the frame at hand (R23). -/
def State.sources (s : State) : Sources :=
  { link := s.link.slots, localIn := s.ports.localIn, voice := table s.voiceBlock }

/-- The samples an optional source brings: zeros when absent or invalid (R5). -/
def sourceBlock (valid : Src → Bool) (a : Sources) (x : Option Src) : Block :=
  match x with
  | some src => if valid src then a.block src else silence
  | none => silence

/-- What the input stage gives for one input in one frame. -/
structure InputFrame where
  /-- The input signal y'(n). -/
  signal : Block
  /-- The largest |y(n)|. -/
  peak : Nat
  /-- The CLIP test (R8). -/
  clipped : Bool
  deriving DecidableEq, Repr

/-- The largest magnitude of a block. -/
def peak (b : Block) : Nat := b.toList.foldl (fun m x => max m x.natAbs) 0

/-- A raw sample at either end of the range (R8). -/
def atRail (x : Int) : Bool := x == Config.sampleMin || x == Config.sampleMax

/-- The pre-trim sum of a crossfade at sample n, before its saturation (R5). -/
def crossfadeSum (a b : Int) (n : Nat) : Int :=
  let w := ramp 0 Config.unity n
  roundQ (a * (Config.unity - w)) + roundQ (b * w)

/-- The input stage of one input (R5 to R8). -/
def InputRecord.frame (valid : Src → Bool) (a : Sources) (r : InputRecord) : InputFrame :=
  let incoming := sourceBlock valid a r.carried
  let outgoing := sourceBlock valid a (r.outgoing.getD none)
  let sums : Block := table fun n =>
    match r.outgoing with
    | none => incoming[n]
    | some _ => crossfadeSum outgoing[n] incoming[n] n.val
  let trimmed : Block := table fun n => roundQ (saturate sums[n] * lin r.entry.trim)
  let y : Block := table fun n => saturate trimmed[n]
  { signal := table fun n => roundQ (y[n] * ramp r.gateEnd r.gateTarget n.val)
    peak := peak y
    clipped := incoming.toList.any atRail || outgoing.toList.any atRail || sums.toList.any overflows
      || trimmed.toList.any overflows }

/-- The meter and the clip flag of an input at the end of the frame (R40, R42). -/
def InputRecord.metered (f : InputFrame) (r : InputRecord) : InputRecord :=
  { r with meter := max r.meter f.peak, clip := r.clip || f.clipped }

/-! ### Buses (R9 to R14) -/

/-- The exact sum of a bus at one sample: every input signal times its crosspoint's live gain (R9). -/
def busAcc (signals : Vector Block 64) (gains : Vector (Option Fade × Nat) 64) (held : Bool) (n : Fin 48) : Int :=
  (List.finRange 64).foldl (fun acc i =>
    let g := gains[i]
    acc + signals[i][n] * ((match g.1 with
      | none => g.2
      | some f => f.live held n.val) : Nat)) 0

/-- What one bus gives in one frame. -/
structure BusFrame where
  out : Block
  /-- The required gain of the limiter, unity on a bus that is not limited (R13). -/
  required : Nat
  /-- The limiter gain held for the next frame (R13). -/
  gain : Nat
  clipped : Bool
  deriving DecidableEq, Repr

/-- The combined gain h(n) of a bus (R10). -/
def combinedGain (busLin duck mute : Int) : Int := roundQ (roundQ (busLin * duck) * mute)

/-- The frame of one bus: sum, gain, mute and duck, then the limiter of a FOLDBACK bus whose limiter is ON, else the
saturation alone (R9 to R14, R51). -/
def State.busFrame (s : State) (signals : Vector Block 64) (b : Fin 32) : BusFrame :=
  let r := s.mix.buses[b]
  if r.entry.kind = .unused then { out := silence, required := Config.unity, gain := r.limiterGain, clipped := false }
  else
    let gains : Vector (Option Fade × Nat) 64 := table fun i => (s.fadeOf (.crosspoint i b), lin s.mix.crosspoints[i][b])
    let t : Block := table fun n =>
      let sum := roundQ (busAcc signals gains s.cue.held n)
      let h := combinedGain (s.liveGain (.busGain b) n.val) (ramp r.duckFrom r.duckEnd n.val) (ramp r.muteFrom r.muteEnd n.val)
      roundQ (sum * h)
    if r.entry.kind = .foldback ∧ r.entry.limiter then
      let required := requiredGain (limiterThreshold r.entry.threshold) (peak t)
      let g := limiterGain required r.limiterGain r.entry.release
      let wide : Block := table fun n => roundQ (t[n] * g)
      { out := table fun n => limitedSample t[n] g, required := required, gain := g, clipped := wide.toList.any overflows }
    else
      { out := table fun n => saturate t[n], required := Config.unity, gain := Config.unity
        clipped := t.toList.any overflows }

/-- The meter and the flags of a bus at the end of the frame (R59, R60, R77). -/
def BusRecord.metered (f : BusFrame) (r : BusRecord) : BusRecord :=
  let limited := decide (f.required < Config.unity)
  { r with limitedNow := limited, limiting := r.limiting || limited, clip := r.clip || f.clipped
           meter := max r.meter (peak f.out) }

/-! ### Zones (R15, R134) -/

/-- A call in the queue. -/
def State.callOf (s : State) (id : Nat) : Option Call := s.relay.calls.find? fun c => c.id == id

/-- The call audio of a zone: the voice or the input of the call SPEAKING in it, else the voice whose one-frame cut it
carries in this frame (R134). -/
def State.callFeed (s : State) (a : Sources) (signals : Vector Block 64) (z : Fin 16) : Block :=
  let zone := s.relay.zones[z]
  let feed : Option Block := (zone.call.bind s.callOf).bind fun c =>
    if c.state = .onAir true then
      match c.source, c.voice with
      | .clip _, some v => some a.voice[v]
      | .clip _, none => none
      | .input i, _ => some signals[i]
    else none
  feed.getD (zone.tail.elim silence fun v => a.voice[v])

/-- The frame of one zone (R15). -/
def State.zoneFrame (s : State) (a : Sources) (signals : Vector Block 64) (outs : Vector BusFrame 32) (z : Fin 16) : Block :=
  let zone := s.relay.zones[z]
  let programme : Block := match zone.entry.programme with
    | some b => if s.mix.buses[b].entry.kind = .relay then outs[b].out else silence
    | none => silence
  let call := s.callFeed a signals z
  table fun n =>
    let p := roundQ (programme[n] * ramp zone.duckFrom zone.duckEnd n.val)
    let c := roundQ (call[n] * lin zone.entry.callLevel)
    saturate (roundQ ((p + c) * s.liveGain (.zoneLevel z) n.val))

/-! ### The end of the frame (R58) -/

/-- One frame of every fade: the elapsed count moves on unless HELD (R105). -/
def Fade.advance (held : Bool) (f : Fade) : Fade :=
  if held || f.frames ≤ f.elapsed then f else { f with elapsed := f.elapsed + 1 }

/-- The events of the inputs at the end of a frame, the inputs ascending (R40; the order is the model's choice, log entry
31). -/
def clipPosts (s : State) (frames : Vector InputFrame 64) : List Post :=
  (List.finRange 64).filterMap fun i =>
    if frames[i].clipped && !s.inputs[i].clip then some (inputClipPost i) else none

/-- The events of the buses at the end of a frame, the buses ascending and LIMITING before BUS_CLIP of one bus (R59, R77; the
order is the model's choice, log entry 31). -/
def busPosts (s : State) (frames : Vector BusFrame 32) : List Post :=
  (List.finRange 32).flatMap fun b =>
    (if frames[b].required < Config.unity ∧ s.mix.buses[b].limiting = false then [limitingPost b (inv frames[b].required)]
      else []) ++
    (if frames[b].clipped && !s.mix.buses[b].clip then [busClipPost b] else [])

/-- The input stage of every input for the frame being carried. -/
def State.inputFrames (s : State) (a : Sources) : Vector InputFrame 64 :=
  table fun i => s.inputs[i].frame s.sourceValid a

/-- The input signals y'(n) of a frame. -/
def signalsOf (frames : Vector InputFrame 64) : Vector Block 64 := table fun i => frames[i].signal

/-- Every bus for the frame being carried. -/
def State.busFrames (s : State) (signals : Vector Block 64) : Vector BusFrame 32 := table fun b => s.busFrame signals b

/-- The meters and clip flags of the inputs are updated with the frame being carried, and INPUT_CLIP is posted (R40, R42). -/
def State.meterInputs (s : State) : State :=
  let frames := s.inputFrames s.sources
  (s.onInputs fun v => table fun i => v[i].metered frames[i]).postAll (clipPosts s frames)

/-- The meters, clip flags and limiting flags of the buses are updated with the frame being carried, and LIMITING and BUS_CLIP
are posted (R59, R60, R77). -/
def State.meterBuses (s : State) : State :=
  let frames := s.busFrames (signalsOf (s.inputFrames s.sources))
  (s.onMix fun m => { m with buses := table fun b => m.buses[b].metered frames[b] }).postAll (busPosts s frames)

/-- Make the mix of the frame being carried and close the frame: gates, limiter gains, fades and voices move on, and the mix
waits for the next boundary's outputs (R39, R58, R75, R105, R119). -/
def State.closeFrame (s : State) : State :=
  let a := s.sources
  let signals := signalsOf (s.inputFrames a)
  let buses := s.busFrames signals
  { s with
    frameOpen := false
    inputs := table fun i => { s.inputs[i] with gateEnd := s.inputs[i].gateTarget }
    mix := { s.mix with
      buses := table fun b => { s.mix.buses[b] with limiterGain := buses[b].gain }
      busOut := table fun b => buses[b].out
      zoneOut := table fun z => s.zoneFrame a signals buses z }
    cue := { s.cue with fades := s.cue.fades.map (Fade.advance s.cue.held) }
    clip := { s.clip with voices := table s.voiceAfter } }

end Sys2Proof.Machine
end

