-- ==== Sys2Proof/Machine/Relay.lean ====
section
/-! DEFINITION. The relay controller (Chapter 7): placing calls, the nine steps of the relay pass, the show-stop call, and
the reset of the calls. -/

namespace Sys2Proof.Machine

open Sys2Proof

/-! ### The call queue -/

/-- The call is ON_AIR, in either phase. -/
def Call.isOnAir (c : Call) : Bool :=
  match c.state with
  | .onAir _ => true
  | _ => false

/-- A live call: its source is an input. -/
def Call.isLive (c : Call) : Bool :=
  match c.source with
  | .input _ => true
  | .clip _ => false

/-- The zones of a set, ascending. -/
def zonesOf (zs : BitVec 16) : List (Fin 16) := (List.finRange 16).filter fun z => zs.getLsbD z.val

/-- The zones of a list as a set: zone z is bit z. -/
def zoneSet (zs : List (Fin 16)) : BitVec 16 := zs.foldl (fun acc z => acc ||| BitVec.twoPow 16 z.val) 0

/-- Every zone of the call's set is ACKED. -/
def Call.allAcked (c : Call) : Bool := (zonesOf c.zones).all fun z => c.acks[z] == .acked

/-- The zones of the call's set still PENDING. -/
def Call.unanswered (c : Call) : BitVec 16 := zoneSet ((zonesOf c.zones).filter fun z => c.acks[z] == .pending)

/-- Change the record of a call. -/
def State.onCall (s : State) (id : Nat) (f : Call → Call) : State :=
  s.onRelay fun r => { r with calls := r.calls.map fun c => if c.id = id then f c else c }

/-- A priority-3 call is ON_AIR. -/
def State.stopIsOnAir (s : State) : Bool := s.relay.calls.any fun c => c.priority == 3 && c.isOnAir

/-- Make every zone that is on air for a call FREE (R134). -/
def State.freeZones (s : State) (id : Nat) : State :=
  s.onRelay fun r => { r with
      zones := table fun z =>
      if r.zones[z].call = some id then { r.zones[z] with call := none } else r.zones[z] }

/-- A call reaches an end state: CALL_ENDED is posted and the record is removed (R135). -/
def State.endCall (s : State) (c : Call) (e : CallEnd) : State :=
  (s.onRelay fun r => { r with calls := r.calls.filter fun d => d.id != c.id }).post
    (callEndedPost c.id e c.unanswered)

/-- The zones reserved by calls other than the one with this id. -/
def State.reservedByOthers (s : State) (id : Nat) : BitVec 16 :=
  s.relay.calls.foldl (fun acc c => if c.id = id then acc else acc ||| c.reserved) 0

/-- A call with a pass count of 3 reserves every zone of its set that no other call has reserved (R143). -/
def State.reserveZones (s : State) (id : Nat) : State :=
  let others := s.reservedByOthers id
  s.onCall id fun c => if c.passes = Config.passLimit then { c with reserved := c.zones &&& ~~~others } else c

/-- A call returns to WAITING with its wait counter at 0 and nothing asked, and reserves again when passed three times (R143,
R149, R151). -/
def State.backToWaiting (s : State) (id : Nat) : State :=
  (s.onCall id fun c => { c with
      state := .waiting, voice := none, waitCount := 0, acks := Vector.replicate 16 .notAsked, since := s.boundaries }).reserveZones id

/-- The scheduling order: priority descending, then acceptance order (R142). -/
def scheduleOrder (calls : List Call) : List Call :=
  (calls.filter (·.priority == 3)) ++ (calls.filter (·.priority == 2)) ++ (calls.filter (·.priority == 1))
    ++ (calls.filter (·.priority == 0))

/-- The call takes part in the pass at hand (R136, R137). -/
def State.takesPart (s : State) (c : Call) : Bool := decide (c.fromPass ≤ s.boundaries)

/-! ### Placing a call (R136, R137) -/

/-- The id after n, wrapping from 65,535 to 1. -/
def idAfter (n : Nat) : Nat := if 65535 ≤ n then 1 else n + 1

/-- The next id after n that is not held, looking at most as often as there are held ids. -/
def nextId (held : List Nat) : Nat → Nat → Nat
  | 0, n => idAfter n
  | k + 1, n => if held.contains (idAfter n) then nextId held k (idAfter n) else idAfter n

/-- The checks of CALL PLACE that need the node's state, in their order: a priority-3 clip call with no call voice, a clip
that is not stored, a second priority-3 record, a full queue (R136). -/
def State.callRefusal (s : State) (c : CallSpec) : Option ResultCode :=
  let clipMissing : Bool := match c.source with
    | .clip id => (s.storedClip id).isNone
    | .input _ => false
  let isClip : Bool := match c.source with
    | .clip _ => true
    | .input _ => false
  if c.priority = 3 ∧ isClip = true ∧ s.clip.reserve = 0 then some .range
  else if clipMissing then some .notFound
  else if c.priority = 3 then (if s.relay.calls.any (·.priority == 3) then some .busy else none)
  else if Config.maxCalls ≤ (s.relay.calls.filter (·.priority != 3)).length then some .noSpace
  else none

/-- The id the next accepted call takes (R136). -/
def State.newCallId (s : State) : Nat :=
  nextId (s.relay.calls.map Call.id) s.relay.calls.length s.relay.lastId

/-- The record of a call at its acceptance; it takes part from the next pass (R136). -/
def State.newCall (s : State) (c : CallSpec) : Call :=
  { id := s.newCallId, priority := c.priority, zones := c.zones, source := c.source, ackRequired := c.ackRequired
    acks := Vector.replicate 16 .notAsked, repeats := c.repeats, waitLimit := c.waitLimit, ackTimeout := c.ackTimeout
    maxOnAir := c.maxOnAir, state := .waiting, voice := none, passes := 0, reserved := 0, waitCount := 0, ackCount := 0
    onAirCount := 0, since := s.boundaries, fromPass := s.boundaries + 1 }

/-- Accept a call: its record, its id, its acceptance order (R136). -/
def State.acceptCall (s : State) (c : CallSpec) : State :=
  s.onRelay fun r => { r with
    calls := r.calls ++ [s.newCall c], lastId := s.newCallId, accepted := r.accepted + 1 }

/-- CALL PLACE; a refused group or broadcast call posts CALL_REFUSED (R136). -/
def placeCallMessage (o : Origin) (call : RawCall) : Handler := fun s =>
  let refused := fun (code : ResultCode) => (({ code := code } : Result),
    match o with
    | .addressed _ => s
    | _ => s.post (callRefusedPost code))
  match checkCall call with
  | none => refused .range
  | some c =>
    match s.callRefusal c with
    | some code => refused code
    | none => ({ code := .ok, data := bytes2 s.newCallId }, s.acceptCall c)

/-! ### Step 1: ends of on-air periods (R139) -/

/-- The on-air period of a call ends: its zones become FREE, and it is DONE or awaits acknowledgement (R139). -/
def State.endOnAir (s : State) (c : Call) : State :=
  let freed := s.freeZones c.id
  if c.ackRequired && !c.allAcked then
    freed.onCall c.id fun d => { d with state := .awaitAck, voice := none, ackCount := 0, since := s.boundaries }
  else freed.endCall { c with voice := none } .done

/-- Take one report of the end of a call's playback: only cause END of a call still ON_AIR ends its period (R139). -/
def State.takeReport (s : State) (e : EndReport) : State :=
  match s.callOf e.call with
  | some c => if e.cause = .ended ∧ c.isOnAir then s.endOnAir c else s
  | none => s

/-- Count a live call's pass on air; at its max on-air the period ends with ONAIR_LIMIT (R139). -/
def State.countOnAir (s : State) (id : Nat) : State :=
  match s.callOf id with
  | some c =>
    match c.source with
    | .input _ =>
      if c.isOnAir ∧ c.since < s.boundaries then
        let counted := { c with onAirCount := c.onAirCount + 1 }
        let s1 := s.onCall id fun _ => counted
        if counted.maxOnAir ≤ counted.onAirCount then (s1.post (onairLimitPost id)).endOnAir counted else s1
      else s
    | .clip _ => s
  | none => s

/-- Step 1 of the pass (R138). DESIGN CHOICE (log entry 35): the reports in the order of their posts, then the calls in acceptance
order. -/
def State.relayEnds (s : State) : State :=
  let ended := (s.relay.reports.foldl State.takeReport s).onRelay fun r => { r with reports := [] }
  (ended.relay.calls.map Call.id).foldl State.countOnAir ended

/-! ### Step 2: CALL END and CALL CANCEL (R140, R141) -/

/-- The zones a call leaves carry its voice's one-frame cut in this frame (R134). -/
def State.tailZones (s : State) (zs : BitVec 16) (v : Fin 8) : State :=
  s.onRelay fun r => { r with
      zones := table fun z =>
      if zs.getLsbD z.val then { r.zones[z] with tail := some v } else r.zones[z] }

/-- The state byte of a call: WAITING 0, ON_AIR 1, AWAIT_ACK 2, and 3 for DONE. -/
def CallState.byteOf : CallState → Nat
  | .waiting => 0
  | .onAir _ => 1
  | .awaitAck => 2

/-- CALL END (R140). -/
def callEnd (id : Nat) : Handler := fun s =>
  match s.callOf id with
  | none => refuse .notFound s
  | some c =>
    match c.source, c.state with
    | .clip _, _ => refuse .range s
    | .input _, .awaitAck => refuse .busy s
    | .input _, .waiting => ({ code := .ok }, s.endCall c .cancelledUnaired)
    | .input _, .onAir _ =>
      ({ code := .ok, data := byte (if c.ackRequired && !c.allAcked then 2 else 3) }, s.endOnAir c)

/-- CALL CANCEL (R141). -/
def callCancel (id : Nat) : Handler := fun s =>
  match s.callOf id with
  | none => refuse .notFound s
  | some c =>
    let stopped :=
      match c.state, c.source, c.voice with
      | .onAir true, .clip _, some v => (s.callStop v).tailZones c.zones v
      | _, _, _ => s
    ({ code := .ok, data := byte c.state.byteOf }, (stopped.freeZones id).endCall c .cancelledAsked)

/-- Take one CALL END or CALL CANCEL and write its result into its place. -/
def State.takeRelayRequest (s : State) (r : RelayRequest) : State :=
  let (result, s1) := if r.cancel then callCancel r.id s else callEnd r.id s
  s1.answer r.place result

/-- Step 2 of the pass: the requests in the order in which they completed (R138). -/
def State.relayRequests (s : State) : State :=
  (s.relay.requests.foldl State.takeRelayRequest (s.onRelay fun r => { r with requests := [] }))

/-! ### Step 3: acknowledge presses (R146, R147) -/

/-- The call a press in a zone answers: the one ON_AIR there with its ack PENDING, else the earliest in AWAIT_ACK with its ack
PENDING there (R147). -/
def State.answeredCall (s : State) (z : Fin 16) : Option Call :=
  match s.relay.calls.find? fun c => c.isOnAir && s.relay.zones[z].call == some c.id && c.acks[z] == .pending with
  | some c => some c
  | none => s.relay.calls.find? fun c => c.state == .awaitAck && c.acks[z] == .pending && c.zones.getLsbD z.val

/-- A press taken in a zone answers one call, or none (R147). -/
def State.takePress (s : State) (z : Fin 16) : State :=
  match s.answeredCall z with
  | none => s
  | some c =>
    let answered := { c with acks := put c.acks z .acked }
    let s1 := s.onCall c.id fun _ => answered
    if c.state = .awaitAck ∧ answered.allAcked then s1.endCall answered .done else s1

/-- Read one acknowledge line against its latch (R146). -/
def State.readAckLine (s : State) (z : Fin 16) : State :=
  if s.ports.ack[z].asserted then
    if s.relay.zones[z].latch then s else (s.onZone z fun r => { r with latch := true }).takePress z
  else s.onZone z fun r => { r with latch := false }

/-- Step 3 of the pass. DESIGN CHOICE (log entry 35): the presses by ascending zone. -/
def State.relayPresses (s : State) : State := (List.finRange 16).foldl State.readAckLine s

/-! ### Step 4: ack counters (R149) -/

/-- Count a call's pass in AWAIT_ACK; at its ack timeout it repeats to its unanswered zones or is UNANSWERED (R149). -/
def State.countAck (s : State) (id : Nat) : State :=
  match s.callOf id with
  | some c =>
    if c.state = .awaitAck ∧ c.since < s.boundaries then
      let counted := { c with ackCount := c.ackCount + 1 }
      let s1 := s.onCall id fun _ => counted
      if counted.ackTimeout ≤ counted.ackCount then
        if 0 < c.repeats then
          (s1.onCall id fun d => { d with zones := c.unanswered, repeats := c.repeats - 1 }).backToWaiting id
        else s1.endCall counted .unanswered
      else s1
    else s
  | none => s

/-- Step 4 of the pass. DESIGN CHOICE (log entry 35): the calls in acceptance order. -/
def State.relayAcks (s : State) : State := (s.relay.calls.map Call.id).foldl State.countAck s

/-! ### Going on air (R142, R150) and being cut (R151) -/

/-- A free call voice for a call: in force, IDLE, not changing side, not assigned to another call (R142). -/
def State.voiceFree (s : State) (id : Nat) (v : Fin 8) : Bool :=
  !s.isCueVoice v && s.clip.voices[v].state == .idle && !s.changesSide v
    && !(s.relay.calls.any fun c => c.voice == some v && c.id != id)

/-- The lowest-numbered free call voice (R142). -/
def State.freeCallVoice (s : State) (id : Nat) : Option (Fin 8) := (List.finRange 8).find? (s.voiceFree id)

/-- A call becomes ON_AIR in its zones; with ack REQUIRED every zone of its set that is not ACKED becomes PENDING (R142,
R150). -/
def State.goOnAir (s : State) (id : Nat) (speaking : Bool) (voice : Option (Fin 8)) : State :=
  match s.callOf id with
  | none => s
  | some c =>
    let acks := if c.ackRequired then
        table fun z => if c.zones.getLsbD z.val && c.acks[z] != .acked then Ack.pending else c.acks[z]
      else c.acks
    (s.onCall id fun d => { d with
        state := .onAir speaking, voice := voice, onAirCount := 0, reserved := 0, acks := acks, since := s.boundaries }).onRelay
      fun r => { r with
          zones := table fun z =>
            if c.zones.getLsbD z.val then { r.zones[z] with call := some id } else r.zones[z] }

/-- A call ON_AIR is cut by a show-stop call with this id and zone set; `taken` when the stop took its voice (R151). -/
def State.cutCall (s : State) (stop : Nat) (stopZones : BitVec 16) (taken : Bool) (c : Call) : State :=
  match c.source with
  | .input _ => (s.freeZones c.id).endCall c .cancelledCut
  | .clip _ =>
    let stopped :=
      match c.state, c.voice with
      | .onAir true, some v => if taken then s else (s.callStop v).tailZones (c.zones &&& ~~~stopZones) v
      | _, _ => s
    ((stopped.freeZones c.id).backToWaiting c.id).post (callCutPost c.id stop)

/-- How a show-stop clip call gets its voice (R150 step 1). -/
inductive StopVoice where
  | start (v : Fin 8)
  | take (v : Fin 8)
  | noVoice
  deriving DecidableEq, Repr

/-- The voice of a show-stop clip call: the lowest free call voice, else the lowest call voice in force that is not changing
side (R150 step 1). -/
def State.stopVoiceFor (s : State) (id : Nat) : StopVoice :=
  match s.freeCallVoice id with
  | some v => .start v
  | none =>
    match (List.finRange 8).find? fun v => !s.isCueVoice v && !s.changesSide v with
    | some v => if s.clip.voices[v].state = .idle then .start v else .take v
    | none => .noVoice

/-- The call a voice serves, when it is ON_AIR. -/
def State.servedCall (s : State) (v : Fin 8) : Option Call :=
  s.relay.calls.find? fun c => c.voice == some v && c.isOnAir

/-- No zone carries the cut of a voice any more: the stop took it (R134). -/
def State.dropTails (s : State) (v : Fin 8) : State :=
  s.onRelay fun r => { r with
      zones := table fun z =>
      if r.zones[z].tail = some v then { r.zones[z] with tail := none } else r.zones[z] }

/-- Steps 2 to 5 of R150: cut the calls in the stop's zones, go ON_AIR speaking, set HELD, post. DESIGN CHOICE (log entry 35): the
calls are cut in acceptance order. -/
def State.stopSpeaks (s : State) (c : Call) (voice : Option (Fin 8)) : State :=
  let inSet := s.relay.calls.filter fun d => d.isOnAir && d.zones &&& c.zones != 0
  let cut := inSet.foldl (fun s d => s.cutCall c.id c.zones false d) s
  ((cut.goOnAir c.id true voice).hold true).post (showStopPost c.id c.zones)

/-- A voice is given to the stop; the call it served is cut (R150 step 1). -/
def State.giveVoice (s : State) (c : Call) (v : Fin 8) (clip : Nat) (take : Bool) : State :=
  let served := s.servedCall v
  let given := if take then (s.callTake v clip c.id).dropTails v else s.callStart v clip c.id
  match served with
  | some d => given.cutCall c.id c.zones true d
  | none => given

/-- A WAITING priority-3 call goes on air (R150). -/
def State.showStop (s : State) (c : Call) : State :=
  match c.source with
  | .input _ => s.stopSpeaks c none
  | .clip clip =>
    match s.stopVoiceFor c.id with
    | .noVoice => s.endCall c .cancelledNoVoice
    | .start v => (s.giveVoice c v clip false).stopSpeaks c (some v)
    | .take v => (s.giveVoice c v clip true).stopSpeaks c (some v)

/-- Step 5 of the pass. -/
def State.relayStops (s : State) : State :=
  match s.relay.calls.find? fun c => c.priority == 3 && c.state == .waiting && s.takesPart c with
  | some c => s.showStop c
  | none => s

/-! ### Step 6: scheduling, passing and reservation (R142, R143) -/

/-- A call that has been passed: its pass count rises to at most 3, and at 3 it reserves (R143). -/
def State.passCall (s : State) (id : Nat) : State :=
  match s.callOf id with
  | none => s
  | some c =>
    if c.passes < Config.passLimit then
      let passed := s.onCall id fun d => { d with passes := d.passes + 1 }
      if c.passes + 1 = Config.passLimit then passed.reserveZones id else passed
    else s

/-- The calls passed when a call goes on air: earlier in the scheduling order, still WAITING, sharing a zone (R143). -/
def State.passedBy (s : State) (c : Call) : List Nat :=
  (((scheduleOrder s.relay.calls).takeWhile fun d => d.id != c.id).filter fun d =>
    d.state == .waiting && s.takesPart d && d.zones &&& c.zones != 0).map Call.id

/-- Every zone of the call's set is FREE and none is reserved by another call (R142). -/
def State.zonesOpen (s : State) (c : Call) : Bool :=
  ((zonesOf c.zones).all fun z => s.relay.zones[z].call.isNone) && c.zones &&& s.reservedByOthers c.id == 0

/-- Whether a call may go on air, and the voice it takes: none to wait, `some none` for a live call (R142). -/
def State.admission (s : State) (c : Call) : Option (Option (Fin 8)) :=
  if c.state = .waiting ∧ c.priority ≠ 3 ∧ s.takesPart c ∧ s.zonesOpen c then
    match c.source with
    | .input _ => some none
    | .clip _ => (s.freeCallVoice c.id).map some
  else none

/-- Consider one call in its turn (R142): when it goes on air, the calls it passes count their pass (R143). DESIGN CHOICE (log entry
35): they do so in the scheduling order, so that of two that come to 3 the one earlier there reserves a shared zone first. -/
def State.considerCall (s : State) (id : Nat) : State :=
  match s.callOf id with
  | none => s
  | some c =>
    match s.admission c with
    | none => s
    | some voice => (s.passedBy c).foldl State.passCall (s.goOnAir id false voice)

/-- Step 6 of the pass: the calls in the scheduling order (R142). -/
def State.relaySchedule (s : State) : State :=
  ((scheduleOrder s.relay.calls).map Call.id).foldl State.considerCall s

/-! ### Step 7: wait counters (R144) -/

/-- Count a call's pass in WAITING; at its wait limit it is EXPIRED (R144). A priority-3 call's limit does not act. -/
def State.countWait (s : State) (id : Nat) : State :=
  match s.callOf id with
  | some c =>
    if c.state = .waiting ∧ c.priority ≠ 3 ∧ s.takesPart c then
      let counted := { c with waitCount := c.waitCount + 1 }
      let s1 := s.onCall id fun _ => counted
      if counted.waitLimit ≤ counted.waitCount then s1.endCall counted .expired else s1
    else s
  | none => s

/-- Step 7 of the pass. DESIGN CHOICE (log entry 35): the calls in acceptance order. -/
def State.relayWaits (s : State) : State := (s.relay.calls.map Call.id).foldl State.countWait s

/-! ### Step 8: zone ducks and the change to SPEAKING (R133, R145) -/

/-- Move a zone's duck toward the target that its state at the end of the previous pass gives (R133). -/
def Zone.moveDuck (z : Zone) : Zone :=
  let depth := lin z.entry.duckDepth
  let target := if z.wasOnAir then depth else Config.unity
  let e := duckMove z.duckEnd target depth (if z.wasStop then 1 else z.entry.attack) z.entry.release
  { z with duckFrom := z.duckEnd, duckEnd := e, duckState := duckStateOf e target z.wasOnAir }

/-- The zone duck moves of step 8. -/
def State.relayDucks (s : State) : State := s.onRelay fun r => { r with zones := table fun z => r.zones[z].moveDuck }

/-- Every zone of the call has its duck at depth (R145). -/
def State.atDepth (s : State) (c : Call) : Bool :=
  (zonesOf c.zones).all fun z => s.relay.zones[z].duckEnd == lin s.relay.zones[z].entry.duckDepth

/-- The voice a clip call speaks with: its assigned voice while that is free for it, else the lowest free call voice (R145). -/
def State.speakingVoice (s : State) (c : Call) : Option (Fin 8) :=
  match c.voice with
  | some v => if s.voiceFree c.id v then some v else s.freeCallVoice c.id
  | none => s.freeCallVoice c.id

/-- Test a DUCKING call that went ON_AIR at an earlier pass: at depth it becomes SPEAKING and its clip is started; with no
voice left it returns to WAITING as a cut call does (R145). -/
def State.speakCall (s : State) (id : Nat) : State :=
  match s.callOf id with
  | none => s
  | some c =>
    if c.state = .onAir false ∧ c.since < s.boundaries ∧ s.atDepth c then
      match c.source with
      | .input _ => s.onCall id fun d => { d with state := .onAir true }
      | .clip clip =>
        match s.speakingVoice c with
        | some v => (s.onCall id fun d => { d with state := .onAir true, voice := some v }).callStart v clip id
        | none => ((s.freeZones id).backToWaiting id).post (callCutPost id 0)
    else s

/-- The changes to SPEAKING of step 8. DESIGN CHOICE (log entry 35): the calls in acceptance order. -/
def State.relaySpeak (s : State) : State := (s.relay.calls.map Call.id).foldl State.speakCall s

/-! ### Step 9: lamps and the show-stop report (R138, R148) -/

/-- Step 9 of the pass, at whose end the blocks are kept for STATUS READ of the relay (R154). -/
def State.relayLamps (s : State) : State :=
  (s.onRelay fun r => { r with
    stopOnAir := s.stopIsOnAir
    zones := table fun z => { r.zones[z] with
      lamp := r.calls.any fun c => c.zones.getLsbD z.val && c.acks[z] == .pending } }).showPass

/-! ### Opening of a pass, and show reset (R155) -/

/-- At the opening of a boundary: the zone states at the end of the previous pass, from which the ducks form their targets
(R133), and no zone carries a cut any more. -/
def State.openPass (s : State) : State :=
  s.onRelay fun r => { r with
      zones := table fun z =>
      { r.zones[z] with
      wasOnAir := r.zones[z].call.isSome
      wasStop := ((r.zones[z].call.bind s.callOf).map fun c => c.priority == 3).getD false
      tail := none } }

/-- The items of the relay pass. -/
def isRelayItem : Item → Bool
  | .relayEnds | .relayRequests | .relayPresses | .relayAcks | .relayStops | .relaySchedule | .relayWaits | .relayDucks
  | .relaySpeak | .relayLamps => true
  | _ => false

/-- A CALL END or CALL CANCEL due at a show reset is refused with NOT_FOUND (R155). -/
def State.refuseRelayRequests (s : State) : State :=
  s.relay.requests.foldl (fun s r => s.answer r.place { code := .notFound }) s

/-- A zone at a show reset: FREE, dark, its latch kept and SET by a press taken here; its duck does not move at this boundary
(R155, R156). -/
def Zone.afterShowReset (asserted : Bool) (z : Zone) : Zone :=
  { z with call := none, lamp := false, tail := none, latch := z.latch || asserted, duckFrom := z.duckEnd }

/-- A show reset replaces the relay pass (R155). -/
def State.resetCalls (s : State) : State :=
  (s.refuseRelayRequests.onRelay fun r =>
      { r with calls := [], requests := [], reports := [], stopOnAir := false
               zones := table fun z => r.zones[z].afterShowReset s.ports.ack[z].asserted }).onDue
    fun d => d.filter fun it => !isRelayItem it

end Sys2Proof.Machine
end

