-- ==== Sys2Proof/Machine/Cue.lean ====
section
/-! DEFINITION. The cue engine (Chapter 5): the cue list, GO and the standby, firing and its actions, the follow, fade
completion, HELD, and the cue engine's show reset. -/

namespace Sys2Proof.Machine

open Sys2Proof

/-! ### The cue list (R81, R83, R84) -/

/-- The record of a number. -/
def findCue (cues : List Cue) (n : Nat) : Option Cue := cues.find? fun c => c.number == n

/-- The next cue after a number: the list is in rising order of number (R81). -/
def nextAfter (cues : List Cue) (n : Nat) : Option Cue := cues.find? fun c => decide (n < c.number)

/-- The total of actions of a list (R81). -/
def actionTotal (cues : List Cue) : Nat := (cues.map fun c => c.actions.length).sum

/-- The list without a number. -/
def withoutCue (cues : List Cue) (n : Nat) : List Cue := cues.filter fun c => c.number != n

/-- The list with a record in its place in number order; a record of the same number is replaced whole (R83). -/
def withCue (cues : List Cue) (c : Cue) : List Cue :=
  cues.filter (fun d => decide (d.number < c.number)) ++ [c] ++ cues.filter (fun d => decide (c.number < d.number))

/-- The counts of cues and actions that the replies of R83 and R84 carry. -/
def listCounts (cues : List Cue) : List U8 := bytes2 cues.length ++ bytes2 (actionTotal cues)

/-- CUE STORE (R82, R83). -/
def cueStore (raw : RawCue) : Handler := fun s =>
  match checkCue raw with
  | none => refuse .range s
  | some c =>
    let cues := withCue s.cue.cues c
    if Config.maxCues < cues.length ∨ Config.maxActions < actionTotal cues then refuse .noSpace s
    else ({ code := .ok, data := listCounts cues }, s.onCue fun e => { e with cues := cues })

/-- CUE REMOVE: a removed standby moves to the next cue (R84). -/
def cueRemove (number : U32) : Handler := fun s =>
  match findCue s.cue.cues number.toNat with
  | none => refuse .notFound s
  | some c =>
    let cues := withoutCue s.cue.cues c.number
    let standby := if s.cue.standby = some c.number then (nextAfter s.cue.cues c.number).map Cue.number else s.cue.standby
    ({ code := .ok, data := optCue standby ++ listCounts cues },
      s.onCue fun e => { e with cues := cues, standby := standby })

/-- A stored action in the layout of CUE STORE (R175, Table 5-2). -/
def Action.bytes : Action → List U8
  | .move t c f sh => byte 0 ++ targetBytes t ++ bytes2 c.val ++ bytes4 f ++ byte sh.ctorIdx
  | .play v c g l => byte 1 ++ byte v.val ++ byte c ++ bytes2 g.val ++ yesNo l
  | .stop v f => byte 2 ++ byte v.val ++ bytes4 f
  | .route i a b => byte 3 ++ byte i.val ++ srcBytes a ++ srcBytes b
  | .call z p c k r => byte 4 ++ bytes2 z.toNat ++ byte p.val ++ byte c ++ yesNo k ++ byte r

/-- A cue record in the layout of CUE STORE (R85, R175). -/
def Cue.bytes (c : Cue) : List U8 :=
  bytes4 c.number ++ byte c.actions.length ++ byte c.follow.ctorIdx ++ bytes4 c.wait ++ c.actions.flatMap Action.bytes

/-- CUE READ: mode EXACT (0) or NEXT (1) (R85). -/
def cueRead (number : U32) (mode : U8) : Handler := fun s =>
  if maxCueNumber < number.toNat ∨ 2 ≤ mode.toNat then refuse .range s
  else
    match (if mode = 0 then findCue s.cue.cues number.toNat else nextAfter s.cue.cues number.toNat) with
    | none => refuse .notFound s
    | some c => ({ code := .ok, data := c.bytes }, s)

/-! ### Actions (R94 to R97) -/

/-- The voice of a VOICE_GAIN target whose STOP fade is taken off plays on (log entry 12). -/
def State.unstopTarget (s : State) (t : Target) : State :=
  match t with
  | .voiceGain v => s.onVoice v Voice.unstop
  | _ => s

/-- A MOVE that is not skipped: with 0 frames the target takes its end code and its record is removed; otherwise a record is
created or taken over, or the MOVE degrades when the table is full (R94, R102 to R104). -/
def State.move (s : State) (cue serial : Nat) (t : Target) (code : LevelCode) (frames : Nat) (sh : Shape) : State :=
  if frames = 0 then ((s.dropFade t).unstopTarget t).putCode t code
  else if s.fadeRoom t then
    (s.putFade (s.freshFade t sh code frames (some cue) serial)).unstopTarget t
  else (s.post (tableFullPost (some cue) t)).putCode t code

/-- The target is the gain of a voice that a cue may not move: one at or above 8 minus the NODE setting (R94). While a lower
setting is pending, R126 skips the call voices in force too and R94 performs the MOVE: `Config.callVoiceSkips` says which of the
two holds (log entry 16). -/
def State.targetReserved (s : State) : Target → Bool
  | .voiceGain v =>
    decide (8 - s.msg.node.reserve ≤ v.val) || (Config.callVoiceSkips && decide (8 - s.clip.reserve ≤ v.val))
  | _ => false

/-- The skip reason that a refusal of the relay controller gives (R96). -/
def skipReasonOf : ResultCode → SkipReason
  | .noSpace => .noSpace
  | .notFound => .notFound
  | _ => .range

/-- Perform one action of a firing: the state after it, or the reason it is skipped (R94 to R96). -/
def State.perform (s : State) (cue serial : Nat) : Action → Except SkipReason State
  | .move t code frames sh =>
    if s.targetReserved t then .error .voiceReserved else .ok (s.move cue serial t code frames sh)
  | .play v clip gain loop =>
    if s.isCueVoice v && !s.changesSide v then
      if (s.storedClip clip).isSome then
        .ok (s.playVoice v { clip := clip, loop := loop, owner := .cue cue, serial := serial } gain)
      else .error .clipMissing
    else .error .voiceReserved
  | .stop v frames =>
    if s.isCueVoice v then .ok (s.stopVoice v frames (some cue) serial) else .error .voiceReserved
  | .route i source spare => if sourcesAgree source spare then .ok (s.route i source spare) else .error .range
  | .call zones priority clip ack repeats =>
    let c := cueCall zones priority clip ack repeats
    match s.callRefusal c with
    | some code => .error (skipReasonOf code)
    | none => .ok (s.acceptCall c)

/-- Actions in list order from a position on, each on the state its predecessors left; a failing one is skipped and posted
(R93, R97). The number is that of the actions skipped. -/
def State.performAll (cue serial : Nat) : Nat → List Action → State → State × Nat
  | _, [], s => (s, 0)
  | position, a :: rest, s =>
    match s.perform cue serial a with
    | .ok s1 => State.performAll cue serial (position + 1) rest s1
    | .error r =>
      let (s1, skipped) := State.performAll cue serial (position + 1) rest (s.post (skippedPost cue position a r))
      (s1, skipped + 1)

/-! ### Firing and the follow (R93, R98, R99) -/

/-- The open items of a firing after its last action (R99). -/
def State.openItems (s : State) (serial : Nat) : List FollowItem :=
  ((s.cue.fades.filter fun f => f.serial == serial).map fun f => .fade f.target) ++
    ((List.finRange 8).filter fun v => s.clip.voices[v].counts serial).map .voice

/-- The follow that a firing sets up (R98, R99). While it is COUNTING its remaining wait holds the follow wait (log entry
32). -/
def State.followOf (s : State) (c : Cue) (serial : Nat) : Option Follow :=
  let items := match c.follow with
    | .afterComplete => s.openItems serial
    | _ => []
  match c.follow with
  | .none => none
  | kind =>
    some { cue := c.number, kind := kind, timing := items.isEmpty, items := items, wait := c.wait, remaining := c.wait
           since := s.boundaries, serial := serial }

/-- Fire a cue at this boundary (R93). -/
def State.fire (s : State) (c : Cue) (a : Arrival) : State :=
  let serial := s.cue.firings + 1
  let (done, skipped) := State.performAll c.number serial 1 c.actions
    (s.onCue fun e => { e with follow := none, firings := serial })
  (done.onCue fun e => { e with
    standby := (nextAfter e.cues c.number).map Cue.number
    lastFiring := some done.boundaries
    lastCue := some c.number
    follow := done.followOf c serial }).post (cueFiredPost c.number a skipped)

/-- The standby cue's record (law L11). -/
def State.standbyCue (s : State) : Option Cue := s.cue.standby.bind (findCue s.cue.cues)

/-- The GO guard refuses a manual GO at this boundary (R90). -/
def State.guarded (s : State) : Bool :=
  match s.cue.lastFiring with
  | some f => decide (s.boundaries - f < s.msg.node.guard)
  | none => false

/-- GO_REFUSED is posted for a GO that has no reply (R89). -/
def State.refuseGo (s : State) (a : Arrival) (r : GoReason) : State :=
  if a = .message then s else s.post (goRefusedPost a r)

/-- Fire a cue whose GO has passed the checks before the guard (R89, R90). -/
def State.guardedFire (s : State) (a : Arrival) (c : Cue) : Result × State :=
  if s.guarded then ({ code := .guard }, s.refuseGo a .guard)
  else
    let fired := s.fire c a
    ({ code := .ok, data := optCue (some c.number) ++ optCue fired.cue.standby }, fired)

/-- Take a manual GO, with a number or without (R89). -/
def State.takeGo (s : State) (a : Arrival) (number : Option Nat) : Result × State :=
  if number.any fun n => decide (maxCueNumber < n) then ({ code := .range }, s.refuseGo a .range)
  else if s.cue.held then ({ code := .held }, s.refuseGo a .held)
  else
    match number with
    | some n =>
      match findCue s.cue.cues n with
      | none => ({ code := .notFound }, s.post (goUnknownPost n))
      | some c => s.guardedFire a c
    | none =>
      match s.standbyCue with
      | none => ({ code := .notFound }, s.refuseGo a .noStandby)
      | some c => s.guardedFire a c

/-- A press of the GO line is a manual GO with no number and no reply (R88, R190). -/
def State.takeGoLine (s : State) : State :=
  if s.ports.goPressed then
    ((s.onPorts fun p => { p with goPressed := false }).takeGo .line none).2
  else s

/-- STANDBY (R91). -/
def takeStandby (number : U32) : Handler := fun s =>
  if maxCueNumber < number.toNat then refuse .range s
  else
    match findCue s.cue.cues number.toNat with
    | none => refuse .notFound s
    | some c =>
      ({ code := .ok, data := optCue (some c.number) }, s.onCue fun e => { e with standby := some c.number })

/-- HALT (R107). -/
def takeHalt : Handler := fun s => ({ code := .ok }, s.hold false)

/-- A PAUSED voice plays on, or goes on with its STOP fade (R128). -/
def Voice.unpause (v : Voice) : Voice :=
  if v.state = .paused then { v with state := if v.ending = .stopFade then .stopping else .playing } else v

/-- RESUME (R109). -/
def takeResume : Handler := fun s =>
  if s.stopIsOnAir then refuse .heldByStop s
  else if s.cue.held then
    ({ code := .ok },
      ((s.onCue fun e => { e with held := false }).onClip fun c =>
        { c with voices := table fun v => c.voices[v].unpause }).post resumedPost)
  else ({ code := .ok }, s)

/-- The follow has expired: its record is removed and a follow GO fires the standby (R98). -/
def State.expireFollow (s : State) : State :=
  let s1 := s.onCue fun e => { e with follow := none }
  match s1.standbyCue with
  | some c => s1.fire c .follow
  | none => s1.post (goRefusedPost .follow .noStandby)

/-- One step of the follow timer at a boundary after the one at which it entered TIMING; at 0 it expires (R98). -/
def State.stepFollow (s : State) : State :=
  match s.cue.follow with
  | some f =>
    if f.timing ∧ f.since < s.boundaries ∧ s.cue.held = false then
      if f.remaining ≤ 1 then s.expireFollow
      else s.onCue fun e => { e with follow := some { f with remaining := f.remaining - 1 } }
    else s
  | none => s

/-- A follow COUNTING with no item left enters TIMING (R99). -/
def State.startTiming (s : State) : State :=
  match s.cue.follow with
  | some f =>
    if f.timing = false ∧ f.items = [] then
      s.onCue fun e => { e with follow := some { f with timing := true, remaining := f.wait, since := s.boundaries } }
    else s
  | none => s

/-! ### Fades (R105, R106) -/

/-- A fade has computed its last frame. -/
def Fade.done (f : Fade) : Bool := decide (f.frames ≤ f.elapsed)

/-- Complete one fade: its target rests at its end code; a STOP fade ends its voice (R105, R122). -/
def State.completeFade (s : State) (f : Fade) : State :=
  let rested := (s.dropFade f.target).putCode f.target f.endCode
  match f.target with
  | .voiceGain v => if s.clip.voices[v].ending = .stopFade then rested.endVoice v .ended else rested
  | _ => rested

/-- Complete the fade of a target if its last frame has been computed. -/
def State.completeTarget (s : State) (t : Target) : State :=
  match s.fadeOf t with
  | some f => if f.done then s.completeFade f else s
  | none => s

/-- Complete the STOP fades whose last frame has been computed: their playbacks end before the reserve is tested (R122, R125). -/
def State.completeStops (s : State) : State :=
  ((List.finRange 8).filter fun v => s.clip.voices[v].ending == .stopFade).foldl
    (fun s v => s.completeTarget (.voiceGain v)) s

/-- Complete every fade whose last frame has been computed (R105). -/
def State.completeFades (s : State) : State :=
  ((s.cue.fades.filter Fade.done).map Fade.target).foldl State.completeTarget s

/-! ### Show reset (R110) -/

/-- Every fade record is removed, its target left at its last value; follow, HELD and standby are reset (R110). -/
def State.resetCues (s : State) : State :=
  (s.cue.fades.foldl (fun s f => s.putCode f.target f.lastCode) s).onCue fun e => { e with
    fades := [], follow := none, held := false, standby := e.cues.head?.map Cue.number }

end Sys2Proof.Machine
end

