-- ==== Sys2Proof/Machine/Clips.lean ====
section
/-! DEFINITION. The clip player (Chapter 6): captures, CLIP REMOVE, direct play and stop, the ends of playbacks, the change
of the call voice reserve, the pause under HELD, and the clip player's show reset. -/

namespace Sys2Proof.Machine

open Sys2Proof

/-! ### Clip memory and captures (R113 to R118) -/

/-- The free memory: a CAPTURING record counts its whole length (R113). -/
def State.freeMemory (s : State) : Nat := Config.clipMemory - (s.clip.clips.map Clip.length).sum

/-- A source of a capture: a LINK slot or a LOCAL input (R114). -/
def checkCaptureSource (r : RawSource) : Option Src :=
  match checkSource r with
  | some (some (.voice _)) => none
  | some x => x
  | none => none

/-- CAPTURE (R114). -/
def startCapture (clip : U8) (source : RawSource) (length : U32) : Handler := fun s =>
  match clipId clip, checkCaptureSource source with
  | some id, some src =>
    let l := clampTo Config.minClip Config.clipMemory length.toNat
    if s.clip.capture.isSome then refuse .busy s
    else if (s.clip.clips.any fun c => c.id == id) then refuse .inUse s
    else if s.freeMemory < l then refuse .noSpace s
    else
      ({ code := .ok, data := bytes4 l ++ bytes4 ((l + 47) / 48) ++ bytes4 (s.freeMemory - l) },
        s.onClip fun c => { c with
          clips := c.clips ++ [{ id := id, length := l, stored := false, samples := [] }]
          capture := some { running := false, clip := id, source := src, length := l, count := 0 } })
  | _, _ => refuse .range s

/-- A capture aborts: its clip record, its samples and its reservation are gone (R116). -/
def State.abortCapture (s : State) (c : Capture) (r : AbortReason) : State :=
  (s.onClip fun p => { p with capture := none, clips := p.clips.filter fun d => d.id != c.clip }).post
    (captureAbortedPost c r)

/-- CAPTURE ABORT (R117). -/
def abortCaptureMessage (clip : U8) : Handler := fun s =>
  match clipId clip with
  | none => refuse .range s
  | some id =>
    match s.clip.capture with
    | some c =>
      if c.clip = id then ({ code := .ok, data := bytes4 c.count }, s.abortCapture c .asked) else refuse .notFound s
    | none => refuse .notFound s

/-- A voice uses a clip: it is not IDLE and plays it, or holds a pending start naming it (R118). -/
def Voice.uses (v : Voice) (id : Nat) : Bool :=
  (v.state != .idle && v.playback.any (·.clip == id)) || v.pending.any (·.playback.clip == id)

/-- A call names a clip as its source (R118). -/
def Call.names (c : Call) (id : Nat) : Bool :=
  match c.source with
  | .clip k => k == id
  | .input _ => false

/-- CLIP REMOVE (R118). -/
def removeClip (clip : U8) : Handler := fun s =>
  match clipId clip with
  | none => refuse .range s
  | some id =>
    match s.clipRecord id with
    | none => refuse .notFound s
    | some c =>
      if c.stored = false ∨ (s.clip.voices.toList.any fun v => v.uses id) = true
          ∨ (s.relay.calls.any fun k => k.names id) = true then
        refuse .inUse s
      else
        let removed := s.onClip fun p => { p with clips := p.clips.filter fun d => d.id != id }
        ({ code := .ok, data := bytes4 removed.freeMemory }, removed)

/-- The 48 samples of a capture's source in the frame at hand, as they arrived (R115). -/
def State.captureBlock (s : State) : Src → Block
  | .link i => s.link.slots[i]
  | .localIn n => s.ports.localIn[n]
  | .voice _ => silence

/-- Complete a capture: its clip is STORED (R115 step 1). -/
def State.completeCapture (s : State) (c : Capture) : State :=
  (s.onClip fun p => { p with
    capture := none
    clips := p.clips.map fun d => if d.id = c.clip then { d with stored := true } else d }).post (captureDonePost c)

/-- Store a frame's samples, as many as the capture still wants (R115 step 3). -/
def State.storeFrame (s : State) (c : Capture) : State :=
  let taken := ((s.captureBlock c.source).toList.map toSample).take (min 48 (c.length - c.count))
  s.onClip fun p => { p with
    capture := some { c with running := true, count := c.count + taken.length }
    clips := p.clips.map fun d => if d.id = c.clip then { d with samples := d.samples ++ taken } else d }

/-- The stored count of a RUNNING capture equals its length. -/
def Capture.full (c : Capture) : Bool := c.running && c.count == c.length

/-- What a boundary does to the capture (R115). -/
def State.stepCapture (s : State) : State :=
  match s.clip.capture with
  | none => s
  | some c =>
    if c.full then s.completeCapture c
    else if s.sourceValid c.source then s.storeFrame c
    else s.abortCapture c .gap

/-- The source of a capture is a link slot. -/
def Capture.fromLink (c : Capture) : Bool :=
  match c.source with
  | .link _ => true
  | _ => false

/-- The report of a link loss aborts a capture from a LINK slot (R116, R170). -/
def State.lossToCapture (s : State) : State :=
  match s.clip.capture with
  | some c => if c.fromLink then s.abortCapture c .link else s
  | none => s

/-! ### Direct play and stop (R124) -/

/-- VOICE PLAY, checked at its taking. -/
def voicePlay (voice clip : U8) (gain : U16) (loop : U8) : Handler := fun s =>
  match index 8 voice, clipId clip, flagValue loop with
  | some v, some id, some l =>
    if s.isCueVoice v = false ∨ s.changesSide v = true then refuse .inUse s
    else if s.cue.held then refuse .held s
    else if (s.storedClip id).isNone then refuse .notFound s
    else
      let played := s.playVoice v { clip := id, loop := l, owner := .direct, serial := 0 } (clampCode gain.toNat)
      ({ code := .ok, data := byte played.clip.voices[v].state.ctorIdx }, played)
  | _, _, _ => refuse .range s

/-- VOICE STOP, checked at its taking. -/
def voiceStop (voice : U8) (frames : U32) : Handler := fun s =>
  match index 8 voice with
  | some v =>
    if s.isCueVoice v then
      let stopped := s.stopVoice v (min Config.maxFrames frames.toNat) none 0
      ({ code := .ok, data := byte stopped.clip.voices[v].state.ctorIdx }, stopped)
    else refuse .inUse s
  | none => refuse .range s

/-! ### Ends of playbacks (R119, R121, R126) -/

/-- The voice's cut-out has run its four frames (R121). -/
def Voice.cutOver (v : Voice) : Bool := v.ending == .cutOut && decide (Config.cutOutFrames ≤ v.cutElapsed)

/-- The voice's one-frame cut is over: a call stop was taken at an earlier boundary (R126). -/
def Voice.stopOver (v : Voice) : Bool := v.ending == .callCut

/-- The playback of the voice ends at this boundary. -/
def Voice.over (v : Voice) : Bool := v.state != .idle && (v.ranOut || v.cutOver || v.stopOver)

/-- The cause of the end: CUT for a call stop, END otherwise (R119, R126). -/
def Voice.endCause (v : Voice) : EndCause := if v.ending = .callCut then .cut else .ended

/-- End a voice's playback if it is over. -/
def State.endIfOver (s : State) (v : Fin 8) : State :=
  let r := s.clip.voices[v]
  if r.over then s.endVoice v r.endCause else s

/-- The ends of playbacks that take effect at this boundary (R119). DESIGN CHOICE (log entry 35): those of one boundary are ended and
reported by ascending voice. -/
def State.endPlaybacks (s : State) : State := (List.finRange 8).foldl State.endIfOver s

/-! ### The reserve (R125) -/

/-- Every voice that changes side is IDLE with no pending start. -/
def State.reserveFree (s : State) : Bool :=
  (List.finRange 8).all fun v =>
    !s.changesSide v || (s.clip.voices[v].state == .idle && s.clip.voices[v].pending.isNone)

/-- The reserve in force becomes the setting when every voice that changes side is free (R125). -/
def State.takeReserve (s : State) : State :=
  if s.reserveFree then s.onClip fun c => { c with reserve := s.msg.node.reserve } else s

/-! ### HELD and resets (R127, R128, R130) -/

/-- A cue voice under HELD: PLAYING, or STOPPING with a STOP fade, becomes PAUSED (R127). -/
def Voice.pause (v : Voice) : Voice :=
  match v.state, v.ending with
  | .playing, _ => { v with state := .paused }
  | .stopping, .stopFade => { v with state := .paused }
  | _, _ => v

/-- Bring the voices into step with HELD as it stands after every request of the boundary (R127). -/
def State.pauseVoices (s : State) : State :=
  if s.cue.held then
    s.onClip fun c => { c with voices := table fun v => if s.isCueVoice v then c.voices[v].pause else c.voices[v] }
  else s

/-- Every voice becomes IDLE with no report, at transport factor end value 4,194,304, and a pending change of reserve takes force
(R130, Table 6-7). -/
def State.resetVoices (s : State) : State :=
  (s.onClip fun c =>
    { c with voices := table fun v => { c.voices[v].toIdle with factorEnd := Config.unity } }).takeReserve

end Sys2Proof.Machine
end

