-- ==== Sys2Proof/Machine/Tables.lean ====
section
/-! DEFINITION. The tables (9.5) and the staged hold (9.6): TABLE WRITE with its prior values, the output map check,
staging, the apply at the boundary, TABLE READ, METER read and HOLD. -/

namespace Sys2Proof.Machine

open Sys2Proof

/-! ### Entries as carried and as read (Table 9-6) -/

/-- The seven fields of an INPUT entry. -/
def InputEntry.bytes (e : InputEntry) : List U8 :=
  srcBytes e.source ++ srcBytes e.spare ++ bytes2 e.trim.val ++ bytes4 e.lossThreshold ++ bytes4 e.restoreThreshold
    ++ yesNo e.autoReturn ++ optIndex e.talkGroup

/-- The seven fields of a BUS entry, with the gain code given. -/
def BusEntry.bytes (e : BusEntry) (gain : LevelCode) : List U8 :=
  byte e.kind.ctorIdx ++ bytes2 gain.val ++ yesNo e.mute ++ yesNo e.limiter ++ bytes2 e.threshold.val ++ bytes4 e.release
    ++ yesNo e.stopDuck

/-- An OUTPUT entry. -/
def OutputEntry.bytes (e : OutputEntry) : List U8 := outSourceBytes e.source ++ byte e.slot.val

/-- The six fields of a ZONE entry, with the zone level given. -/
def ZoneEntry.bytes (e : ZoneEntry) (level : LevelCode) : List U8 :=
  optIndex e.programme ++ bytes2 level.val ++ bytes2 e.callLevel.val ++ bytes2 e.duckDepth.val ++ bytes4 e.attack
    ++ bytes4 e.release

/-- The five fields of a TALK entry. -/
def TalkEntry.bytes (e : TalkEntry) : List U8 :=
  optIndex e.input ++ bytes4 e.buses.toNat ++ bytes2 e.depth.val ++ bytes4 e.attack ++ bytes4 e.release

/-- The NODE entry. -/
def NodeEntry.bytes (e : NodeEntry) : List U8 :=
  e.groups.toList ++ bytes4 e.guard ++ byte e.reserve ++ bytes4 e.holdLimit ++ bytes2 e.stopDepth.val
    ++ bytes8 e.enables.toNat

/-- A fade record is present on a target. -/
def State.fading (s : State) (t : Target) : Bool := (s.fadeOf t).isSome

/-- The live value of a target as a level code, as the node carries it (R48). -/
def State.carriedCode (s : State) (t : Target) : LevelCode :=
  match s.fadeOf t with
  | none => s.setCode t
  | some f => if s.frameOpen then f.liveCode s.cue.held else f.lastCode

/-! ### Staging and acceptance (R178, R182) -/

/-- The two entries have the same key: table and index (R182). -/
def TableEntry.sameKey : TableEntry → TableEntry → Bool
  | .input i _, .input j _ => i == j
  | .crosspoint i b _, .crosspoint j c _ => i == j && b == c
  | .bus b _, .bus c _ => b == c
  | .output o _, .output p _ => o == p
  | .zone z _, .zone y _ => z == y
  | .talk g _, .talk h _ => g == h
  | .voice v _, .voice w _ => v == w
  | .node _, .node _ => true
  | _, _ => false

/-- The staged store with one entry taken in, in the place of the entry of its key or as one more (R182). -/
def stage (store : List TableEntry) (e : TableEntry) : List TableEntry :=
  if store.any fun x => x.sameKey e then store.map fun x => if x.sameKey e then e else x else store ++ [e]

/-- The places a write needs: one for each taken entry whose key is not yet staged (R182). -/
def placesNeeded (store taken : List TableEntry) : Nat :=
  (taken.filter fun e => !(store.any fun x => x.sameKey e)).length

/-- The entry is one of the output map. -/
def TableEntry.isOutput : TableEntry → Bool
  | .output _ _ => true
  | _ => false

/-- The output map with an entry in force. -/
def overlay (map : Vector OutputEntry 40) (e : TableEntry) : Vector OutputEntry 40 :=
  match e with
  | .output o x => put map o x
  | _ => map

/-- The slots that link-send entries claim (R55). -/
def claimedSlots (map : Vector OutputEntry 40) : List (Fin 64) :=
  ((List.finRange 40).filter fun o => decide (24 ≤ o.val) && map[o].source != .none).map fun o => map[o].slot

/-- No value occurs twice. -/
def distinct (xs : List (Fin 64)) : Bool :=
  match xs with
  | [] => true
  | x :: rest => !rest.contains x && distinct rest

/-- The table entries among what has been accepted. -/
def Msg.acceptedEntries (m : Msg) : List TableEntry :=
  m.accepted.filterMap fun a =>
    match a with
    | .write _ e => some e
    | .select _ _ => none

/-- It is an entry of an apply set (R183). -/
def Accepted.isStaged : Accepted → Bool
  | .write staged _ => staged
  | .select _ _ => false

/-- The output map as it would stand: the map, the entries accepted and not yet applied, the staged entries while a hold is
open, and the entries of the message (R55, R182; log entry 15). -/
def State.mapToBe (s : State) (taken : List TableEntry) : Vector OutputEntry 40 :=
  (s.msg.acceptedEntries ++ (if s.msg.holdOpen then s.msg.staged else []) ++ taken).foldl overlay s.mix.outputs

/-- Two link-send entries would claim one slot (R55). -/
def State.slotClash (s : State) (taken : List TableEntry) : Bool :=
  (taken.any TableEntry.isOutput) && !distinct (claimedSlots (s.mapToBe taken))

/-- The taken entries of a checked write are accepted for the next boundary, or staged while a hold is open; the reply
carries their count and their prior values (R178, R182). -/
def acceptEntries (taken : List TableEntry) (priors : List (List U8)) : Handler := fun s =>
  let result : Result := { code := .ok, data := bytes2 taken.length ++ priors.flatten }
  if s.slotClash taken then refuse .inUse s
  else if s.msg.holdOpen then
    if Config.maxStaged < s.msg.staged.length + placesNeeded s.msg.staged taken then refuse .stageFull s
    else (result, s.onMsg fun m => { m with staged := taken.foldl stage m.staged })
  else (result, s.onMsg fun m => { m with accepted := m.accepted ++ taken.map (.write false) })

/-- A TABLE WRITE of a table of n entries from a first index: the index, the cut at the last entry, then the owner's check of
every taken entry (R178). -/
def writeTable {α : Type} (n : Nat) (first : U8) (entries : List α) (check : Fin n → α → Option TableEntry)
    (prior : State → Fin n → List U8) : Handler := fun s =>
  if n ≤ first.toNat then refuse .range s
  else
    let taken := placed n first.toNat entries
    match allSome (taken.map fun x => check x.1 x.2) with
    | none => refuse .range s
    | some es => acceptEntries es (taken.map fun x => prior s x.1) s

/-- TABLE WRITE of INPUT (R22). -/
def writeInput (first : U8) (entries : List RawInput) : Handler :=
  writeTable 64 first entries (fun i r => (checkInput r).map (.input i)) fun s i => s.inputs[i].entry.bytes

/-- TABLE WRITE of BUS; the prior gain code is the live value (R50). -/
def writeBus (first : U8) (entries : List RawBus) : Handler :=
  writeTable 32 first entries (fun b r => (checkBus r).map (.bus b)) fun s b =>
    s.mix.buses[b].entry.bytes (s.carriedCode (.busGain b))

/-- TABLE WRITE of OUTPUT (R55). -/
def writeOutput (first : U8) (entries : List RawOutput) : Handler :=
  writeTable 40 first entries (fun o r => (checkOutput o r).map (.output o)) fun s o => s.mix.outputs[o].bytes

/-- TABLE WRITE of ZONE; the prior zone level is the live value (R131). -/
def writeZone (first : U8) (entries : List RawZone) : Handler :=
  writeTable 16 first entries (fun z r => (checkZone r).map (.zone z)) fun s z =>
    s.relay.zones[z].entry.bytes (s.carriedCode (.zoneLevel z))

/-- TABLE WRITE of TALK (R63). -/
def writeTalk (first : U8) (entries : List RawTalk) : Handler :=
  writeTable 4 first entries (fun g r => (checkTalk r).map (.talk g)) fun s g => s.mix.talk[g].entry.bytes

/-- TABLE WRITE of VOICE (R123). -/
def writeVoice (first : U8) (codes : List U16) : Handler :=
  writeTable 8 first codes (fun v c => some (.voice v (clampCode c.toNat))) fun s v =>
    bytes2 (s.carriedCode (.voiceGain v)).val

/-- TABLE WRITE of NODE (R180). -/
def writeNode (first : U8) (entries : List RawNode) : Handler :=
  writeTable 1 first entries (fun _ r => (checkNode r).map .node) fun s _ => s.msg.node.bytes

/-- TABLE WRITE of CROSSPOINT: the codes fill the window in order, the rest of either is left out (R46, R48). -/
def writeCrosspoint (window : RawWindow) (codes : List U16) : Handler := fun s =>
  match checkWindow window with
  | none => refuse .range s
  | some cells =>
    let taken := cells.zip codes
    acceptEntries (taken.map fun x => .crosspoint x.1.1 x.1.2 (clampCode x.2.toNat))
      (taken.map fun x => bytes2 (s.carriedCode (.crosspoint x.1.1 x.1.2)).val) s

/-! ### The apply at the boundary (R34, R47, R53, R123, R132, R180) -/

/-- One accepted entry applies. -/
def State.applyEntry (s : State) : TableEntry → State
  | .input i e => s.onInput i (InputRecord.write e)
  | .crosspoint i b c => (s.dropFade (.crosspoint i b)).putCode (.crosspoint i b) c
  | .bus b e => (s.dropFade (.busGain b)).onBus b (BusRecord.write e)
  | .output o e => s.onMix fun m => { m with outputs := put m.outputs o e }
  | .zone z e => (s.dropFade (.zoneLevel z)).onZone z fun r => { r with entry := e }
  | .talk g e => s.onTalk g fun t => { t with entry := e }
  | .voice v c => ((s.dropFade (.voiceGain v)).onVoice v Voice.unstop).putCode (.voiceGain v) c
  | .node e => s.onMsg fun m => { m with node := e }

/-- What was accepted applies: a table entry, or an INPUT SELECT. -/
def State.applyAccepted (s : State) : Accepted → State
  | .write _ e => s.applyEntry e
  | .select i side => s.onInput i (InputRecord.select side)

/-- It is a write of the NODE entry, which applies before every other work of the boundary (R172, R180). -/
def Accepted.isNode : Accepted → Bool
  | .write _ (.node _) => true
  | _ => false

/-- It is a write of a VOICE entry, which may come before or after a call start on the voice (R123). -/
def Accepted.isVoice : Accepted → Bool
  | .write _ (.voice _ _) => true
  | _ => false

/-- Apply what was accepted of one sort, in the order in which it was taken. -/
def State.applyThose (s : State) (sort : Accepted → Bool) : State :=
  ((s.msg.accepted.filter sort).foldl State.applyAccepted s).onMsg fun m =>
    { m with accepted := m.accepted.filter fun a => !sort a }

/-- Apply the accepted NODE entries (R180). -/
def State.applyNode (s : State) : State := s.applyThose Accepted.isNode

/-- Apply the accepted VOICE entries (R123). -/
def State.applyVoiceWrites (s : State) : State := s.applyThose Accepted.isVoice

/-- Apply every other accepted entry and the INPUT SELECTs, in the order in which they were taken (R37, R38, R178, R183). -/
def State.applyWrites (s : State) : State := s.applyThose fun a => !a.isNode && !a.isVoice

/-! ### TABLE READ and METER (R179, R181) -/

/-- The read items of a table from an index on: the stored entry and the fields a read adds (Table 9-6). DESIGN CHOICE (log entry
38): the gain code of a BUS item is the set code, as R61 and Table 9-6 give it, where R53 speaks of the code now heard as what TABLE
READ returns. -/
def readItem (s : State) (table index : Nat) : List U8 :=
  if table = 1 then (if h : index < 64 then s.inputs[index].entry.bytes else [])
  else if table = 3 then (if h : index < 32 then s.mix.buses[index].entry.bytes s.mix.buses[index].entry.gain else [])
  else if table = 4 then (if h : index < 40 then s.mix.outputs[index].bytes else [])
  else if table = 5 then
    (if h : index < 16 then
      s.relay.zones[index].entry.bytes s.relay.zones[index].entry.level ++ yesNo (s.fading (.zoneLevel ⟨index, h⟩)) else [])
  else if table = 6 then (if h : index < 4 then s.mix.talk[index].entry.bytes else [])
  else if table = 7 then
    (if h : index < 8 then
      bytes2 s.clip.voices[index].gain.val ++ bytes2 (s.carriedCode (.voiceGain ⟨index, h⟩)).val
        ++ yesNo (s.fading (.voiceGain ⟨index, h⟩)) else [])
  else s.msg.node.bytes

/-- The number of entries of a table that is read by first index and count (Table 9-6); none for CROSSPOINT, METER and a
table that does not exist. -/
def tableSize (table : Nat) : Option Nat :=
  if table = 1 then some 64 else if table = 3 then some 32 else if table = 4 then some 40 else if table = 5 then some 16
  else if table = 6 then some 4 else if table = 7 then some 8 else if table = 8 then some 1 else none

/-- The indices of a range, cut at the table's last entry. -/
def rangeOf (n : Nat) (first count : U8) : List Nat := (List.range n).drop first.toNat |>.take count.toNat

/-- The read item of a crosspoint (R49). -/
def crosspointItem (s : State) (x : Fin 64 × Fin 32) : List U8 :=
  bytes2 s.mix.crosspoints[x.1][x.2].val ++ bytes2 (s.carriedCode (.crosspoint x.1 x.2)).val
    ++ yesNo (s.fading (.crosspoint x.1 x.2))

/-- The bytes left in a reply after the result code (R177). -/
def replyRoom : Nat := Config.maxBody - 1

/-- A meter's peak: inputs, then buses (R181). -/
def State.meterPeak (s : State) (k : Nat) : Nat :=
  if h : k < 64 then s.inputs[k].meter else if h2 : k - 64 < 32 then s.mix.buses[k - 64].meter else 0

/-- Set the meters of a run of entries to 0. -/
def State.clearMeters (s : State) (first count : Nat) : State :=
  { s with
    inputs := table fun i =>
      if first ≤ i.val ∧ i.val < first + count then { s.inputs[i] with meter := 0 } else s.inputs[i]
    mix := { s.mix with
      buses := table fun b =>
        if first ≤ b.val + 64 ∧ b.val + 64 < first + count then { s.mix.buses[b] with meter := 0 } else s.mix.buses[b] } }

/-- A METER read: the peaks that fit are returned and set to 0 (R181). -/
def readMeter (first count : U8) : Handler := fun s =>
  if 96 ≤ first.toNat then refuse .range s
  else
    let kept := fitting (replyRoom - 5) ((rangeOf 96 first count).map fun k => bytes3 (s.meterPeak k))
    ({ code := .ok, data := [9, first, count] ++ bytes2 kept.length ++ kept.flatten },
      s.clearMeters first.toNat kept.length)

/-- TABLE READ; METER, table 9, is read by its own rule (R49, R179, R181). -/
def readTable (table : U8) (place : ReadPlace) : Handler := fun s =>
  match place with
  | .window w =>
    if table = 2 then
      match checkWindow w with
      | none => refuse .range s
      | some cells =>
        ({ code := .ok
           data := [table, w.inputFirst, w.inputLast, w.busFirst, w.busLast]
             ++ counted (replyRoom - 5) (cells.map (crosspointItem s)) }, s)
    else refuse .length s
  | .range first count =>
    if table = 2 then refuse .length s
    else if table = 9 then readMeter first count s
    else
      match tableSize table.toNat with
      | none => refuse .badTable s
      | some n =>
        if n ≤ first.toNat then refuse .range s
        else
          ({ code := .ok
             data := [table, first, count]
               ++ counted (replyRoom - 3) ((rangeOf n first count).map (readItem s table.toNat)) }, s)

/-! ### HOLD (R182, R183) -/

/-- HOLD ON: opens a closed hold with an empty store (R182). -/
def holdOn : Handler := fun s =>
  if s.msg.holdOpen then ({ code := .ok, data := bytes2 s.msg.staged.length }, s)
  else ({ code := .ok, data := bytes2 0 }, s.onMsg fun m => { m with holdOpen := true, holdAge := 0, staged := [] })

/-- HOLD APPLY: the staged entries leave the store together as the apply set (R183). DESIGN CHOICE (log entry 36): the age of a
closed hold is 0. -/
def holdApply : Handler := fun s =>
  if s.msg.holdOpen then
    ({ code := .ok, data := bytes2 s.msg.staged.length },
      s.onMsg fun m => { m with
        holdOpen := false, holdAge := 0, staged := []
        accepted := m.accepted ++ m.staged.map (.write true) })
  else refuse .notFound s

/-- HOLD DISCARD (R183). DESIGN CHOICE (log entry 36): the age of a closed hold is 0. -/
def holdDiscard : Handler := fun s =>
  if s.msg.holdOpen then
    ({ code := .ok, data := bytes2 s.msg.staged.length },
      s.onMsg fun m => { m with holdOpen := false, holdAge := 0, staged := [] })
  else refuse .notFound s

/-- HOLD by its mode byte: ON 0, APPLY 1, DISCARD 2 (R182). -/
def holdMessage (mode : U8) : Handler :=
  if mode = 0 then holdOn else if mode = 1 then holdApply else if mode = 2 then holdDiscard else refuse .range

/-- The hold age has reached its limit: the store is emptied and the hold closes (R183). DESIGN CHOICE (log entry 36): the age of
a closed hold is 0. -/
def State.timeOutHold (s : State) : State :=
  (s.onMsg fun m => { m with holdOpen := false, holdAge := 0, staged := [] }).post (holdTimeoutPost s.msg.staged.length)

/-- What a boundary does to an open hold (R183). -/
def State.ageHold (s : State) : State :=
  if s.msg.holdOpen then
    if s.msg.node.holdLimit ≤ s.msg.holdAge + 1 then s.timeOutHold
    else s.onMsg fun m => { m with holdAge := m.holdAge + 1 }
  else s

end Sys2Proof.Machine
end

