-- ==== Sys2Proof/Machine/Status.lean ====
section
/-! DEFINITION. STATUS READ (R186): what each part returns, in the order in which its owner's rule lists it, from the blocks as
they stood at the most recent boundary, and for the relay at the end of its most recent pass. -/

namespace Sys2Proof.Machine

open Sys2Proof

/-- A piece of a status reply: a field, or a list that a two-byte count precedes. -/
inductive Piece where
  | field (bytes : List U8)
  | items (list : List (List U8))
  deriving DecidableEq, Repr

/-- The leading pieces that fit whole in n bytes; of a list, its leading items (R177, R186). -/
def leading : Nat → List Piece → List U8
  | _, [] => []
  | n, .field bs :: rest => if bs.length ≤ n then bs ++ leading (n - bs.length) rest else []
  | n, .items list :: rest =>
    let kept := fitting (n - 2) list
    let bs := bytes2 kept.length ++ kept.flatten
    if n < 2 then []
    else if kept.length = list.length then bs ++ leading (n - bs.length) rest
    else bs

/-- The state with the blocks as a view holds them, in the frame that began there. -/
def State.seen (s : State) (v : View) : State :=
  { s with
    frameOpen := true, link := v.link, msg := v.msg, inputs := v.inputs, mix := v.mix, cue := v.cue, clip := v.clip
    relay := v.relay, ports := v.ports }

/-- An input (R43). DESIGN CHOICE (log entry 10): the gate target is one byte, 0 for open and 1 for closed, in the order in which
its rule lists them. -/
def inputStatus (s : State) (i : Fin 64) : List U8 :=
  let r := s.inputs[i]
  byte r.state.ctorIdx ++ byte r.active.ctorIdx ++ yesNo r.forced ++ bytes4 r.invalidRun ++ bytes4 r.primaryRun
    ++ bytes4 r.spareRun ++ yesNo r.clip ++ yesNo (r.gateTarget != Config.unity)

/-- A bus (R61). DESIGN CHOICE (log entry 10): a bus that is not FOLDBACK reads LIMITING as NO. -/
def busStatus (s : State) (b : Fin 32) : List U8 :=
  let r := s.mix.buses[b]
  let own := r.entry.kind == .foldback
  byte r.entry.kind.ctorIdx ++ bytes2 (s.carriedCode (.busGain b)).val ++ yesNo (s.fading (.busGain b))
    ++ yesNo r.entry.mute ++ bytes4 r.muteEnd
    ++ byte (if own then r.duckState.ctorIdx else 0) ++ bytes4 (if own then r.duckEnd else Config.unity)
    ++ bytes4 (if own then r.limiterGain else Config.unity) ++ yesNo (own && r.limitedNow) ++ yesNo r.clip

/-- A taken level as a status field: NOT_TAKEN 0, ASSERTED 1, RELEASED 2 (R189). -/
def Line.byteOf (l : Line) : Nat :=
  match l.taken with
  | none => 0
  | some true => 1
  | some false => 2

/-- A talk group (R78). DESIGN CHOICE (log entry 10): the state byte of its talk input is 255 when it names none. -/
def talkStatus (s : State) (g : Fin 4) : List U8 :=
  let t := s.mix.talk[g]
  byte s.ports.talk[g].byteOf ++ yesNo t.latch ++ yesNo t.key ++ yesNo t.live
    ++ byte (t.entry.input.elim 255 fun i => s.inputs[i].state.ctorIdx)

/-- The engine states of R86: HELD 0, RUNNING 1, EMPTY 2, READY 3. -/
def engineState (c : CueEngine) : Nat :=
  if c.held then 0 else if !c.fades.isEmpty || c.follow.isSome then 1 else if c.cues.isEmpty then 2 else 3

/-- The boundaries since the last firing, at most 5,000, and 5,000 when it is absent (R112). -/
def State.sinceFiring (s : State) : Nat := s.cue.lastFiring.elim 5000 fun f => min 5000 (s.boundaries - f)

/-- The cue engine (R112): phases COUNTING 0, TIMING 1; a presence byte before the pending follow's fields, and its open items
counted in one byte (log entry 10). -/
def cueStatus (s : State) : List Piece :=
  [ .field (byte (engineState s.cue)), .field (yesNo s.stopIsOnAir), .field (optCue s.cue.standby),
    .field (optCue s.cue.lastCue), .field (bytes4 s.sinceFiring),
    .field (match s.cue.follow with
      | none => yesNo false
      | some f =>
        yesNo true ++ bytes4 f.cue ++ byte f.kind.ctorIdx ++ byte f.timing.toNat ++ byte f.items.length
          ++ bytes4 f.remaining),
    .field (bytes2 s.cue.cues.length), .field (bytes2 (actionTotal s.cue.cues)), .field (bytes2 s.cue.fades.length) ]

/-- The place of a target in the ascending order of R112. -/
def targetRank : Target → Nat
  | .crosspoint i b => i.val * 32 + b.val
  | .busGain b => 2048 + b.val
  | .zoneLevel z => 2080 + z.val
  | .voiceGain v => 2096 + v.val

/-- A fade put in its place of a list in ascending order of target. -/
def insertFade (f : Fade) : List Fade → List Fade
  | [] => [f]
  | g :: rest => if targetRank f.target ≤ targetRank g.target then f :: g :: rest else g :: insertFade f rest

/-- The fade table: shape LINEAR 0, LEVEL 1 (R112). -/
def fadeStatus (s : State) : List Piece :=
  [ .items ((s.cue.fades.foldr insertFade []).map fun f =>
      targetBytes f.target ++ byte f.start.ctorIdx ++ bytes2 f.endCode.val ++ bytes4 f.frames ++ bytes4 f.elapsed
        ++ optCue f.owner) ]

/-- An owner: kind CUE 0 with its number in four bytes, DIRECT 1, CALL 2 with its id in two, 255 when absent (log entry 10). -/
def ownerBytes : Option Owner → List U8
  | none => byte 255
  | some (.cue n) => byte 0 ++ bytes4 n
  | some .direct => byte 1
  | some (.call id) => byte 2 ++ bytes2 id

/-- The clip of a playback, 255 when absent. -/
def clipByte (p : Option Playback) : List U8 := byte (p.elim 255 Playback.clip)

/-- The loop flag and owner of a playback; of an absent one NO and 255 (log entry 10). -/
def loopAndOwner (p : Option Playback) : List U8 := yesNo (p.any Playback.loop) ++ ownerBytes (p.map Playback.owner)

/-- A voice (R129). DESIGN CHOICE (log entry 10): its transport factor end value takes 4 bytes, as a linear gain does everywhere,
its state counts in the order of Table 6-3, from which that of Table 6-4 differs, and an absent pending start keeps its three fields,
as clip 255, loop NO and owner 255. -/
def voiceStatus (s : State) (v : Fin 8) : List U8 :=
  let r := s.clip.voices[v]
  let pending := r.pending.map PendingStart.playback
  byte r.state.ctorIdx ++ clipByte r.playback ++ bytes4 r.position ++ loopAndOwner r.playback ++ byte r.ending.ctorIdx
    ++ clipByte pending ++ loopAndOwner pending ++ bytes2 r.gain.val
    ++ bytes2 (s.carriedCode (.voiceGain v)).val ++ yesNo (s.fading (.voiceGain v)) ++ bytes4 r.factorEnd

/-- The clip player (R129). DESIGN CHOICE (log entry 10): clips in the order in which they were accepted; clip states CAPTURING 0, STORED 1; capture states ARMED 0, RUNNING 1; a presence byte before the
capture record's fields, which an absent record does not carry (log entry 10). -/
def clipStatus (s : State) : List Piece :=
  [ .items (s.clip.clips.map fun c => byte c.id ++ byte c.stored.toNat ++ bytes4 c.length),
    .field (bytes4 s.freeMemory),
    .field (match s.clip.capture with
      | none => yesNo false
      | some c =>
        yesNo true ++ byte c.clip ++ srcBytes (some c.source) ++ bytes4 c.length ++ byte c.running.toNat
          ++ bytes4 c.count),
    .field (byte s.msg.node.reserve), .field (byte s.clip.reserve) ]
    ++ (List.finRange 8).map fun v => .field (voiceStatus s v)

/-- The duck state of a zone: IDLE 0, ATTACKING 1, RELEASING 2, HELD_DOWN 3, the order in which R133 lists them. -/
def zoneDuckByte : DuckState → Nat
  | .idle => 0
  | .attacking => 1
  | .releasing => 2
  | .heldDown => 3

/-- A zone (R154). DESIGN CHOICE (log entry 10): the call id of a FREE zone and of no reservation is 0; a lamp is lit 0, dark 1, the
order of R148; a latch is CLEAR 0, SET 1. -/
def zoneStatus (s : State) (z : Fin 16) : List U8 :=
  let r := s.relay.zones[z]
  yesNo r.call.isSome ++ bytes2 (r.call.getD 0)
    ++ bytes2 (((s.relay.calls.find? fun c => c.reserved.getLsbD z.val).map Call.id).getD 0)
    ++ byte (zoneDuckByte r.duckState) ++ bytes4 r.duckEnd ++ byte s.ports.ack[z].byteOf ++ yesNo r.latch ++ yesNo (!r.lamp)
    ++ bytes2 (s.carriedCode (.zoneLevel z)).val ++ yesNo (s.fading (.zoneLevel z))

/-- The phase byte of a call: DUCKING 0, SPEAKING 1 (Table 7-3). DESIGN CHOICE (log entry 10): outside ON_AIR, where the table gives
no phase, it is 0. -/
def CallState.phaseByte : CallState → Nat
  | .onAir speaking => speaking.toNat
  | _ => 0

/-- The counter of a call's current state. -/
def Call.counter (c : Call) : Nat :=
  match c.state with
  | .waiting => c.waitCount
  | .onAir _ => c.onAirCount
  | .awaitAck => c.ackCount

/-- A call record (R154). DESIGN CHOICE (log entry 10): priority, pass count and repeats remaining take one byte each. -/
def callStatus (c : Call) : List U8 :=
  bytes2 c.id ++ byte c.priority.val ++ byte c.state.byteOf ++ byte c.state.phaseByte ++ bytes2 c.zones.toNat
    ++ (zonesOf c.zones).flatMap (fun z => byte c.acks[z].ctorIdx) ++ callSourceBytes c.source ++ optIndex c.voice
    ++ byte c.passes ++ bytes2 c.reserved.toNat ++ byte c.repeats ++ bytes4 c.counter

/-- The relay controller, calls in the scheduling order (R154). -/
def relayStatus (s : State) : List Piece :=
  (List.finRange 16).map (fun z => .field (zoneStatus s z))
    ++ [ .items ((scheduleOrder s.relay.calls).map callStatus), .field (yesNo s.stopIsOnAir),
         .field (bytes2 s.relay.lastId) ]

/-- The link interface (R171): timing LINK-TIMED 0, LOCAL-TIMED 1. -/
def linkStatus (s : State) : List Piece :=
  [ .field (byte s.link.state.ctorIdx), .field (byte (!s.link.linkTimed).toNat), .field (portByte s.link.upstream),
    .field (bytes4 s.link.counter.toNat), .field (bytes2 s.link.reacquire), .field (bytes2 s.link.damaged),
    .field (bytes2 s.link.hopDrop), .field (bytes2 s.link.reverse), .field (bytes2 s.link.loss) ]

/-- The message controller with this many replies queued (R186). DESIGN CHOICE (log entry 10): an absent address is 255, and the
assembler's state is a byte 0 for IDLE, or 1 and then the destination, the tag and the cell count of its partial message. -/
def messageStatus (replies : Nat) (s : State) : List Piece :=
  [ .field [s.msg.address.getD 255], .field s.msg.node.groups.toList,
    .field (match s.msg.assembler with
      | none => yesNo false
      | some p => yesNo true ++ [p.destination, p.tag] ++ byte p.cells),
    .field (byte replies), .field (yesNo s.msg.holdOpen), .field (bytes4 s.msg.holdAge),
    .field (bytes2 s.msg.staged.length), .field (yesNo (s.msg.accepted.any Accepted.isStaged)),
    .field (byte s.msg.events.length), .field (bytes8 s.msg.conditions.toNat) ]

/-- A part of a status read as a range of like items, checked and cut as a TABLE READ is (R186). -/
def rangeStatus (n : Nat) (item : State → Fin n → List U8) (first count : U8) : Handler := fun s =>
  if n ≤ first.toNat then refuse .range s
  else
    let chosen := ((List.finRange n).drop first.toNat).take count.toNat
    ({ code := .ok, data := counted replyRoom (chosen.map (item (s.seen s.shown))) }, s)

/-- A part of a status read that ignores the range (R186), from a view. -/
def wholeStatus (pieces : State → List Piece) (view : State → View) : Handler := fun s =>
  ({ code := .ok, data := leading replyRoom (pieces (s.seen (view s))) }, s)

/-- STATUS READ: parts INPUTS 0, BUSES 1, TALK 2, CUE 3, FADES 4, CLIPS 5, RELAY 6, LINK 7, MESSAGE 8 (R186). -/
def readStatus (part first count : U8) : Handler := fun s =>
  (if part = 0 then rangeStatus 64 inputStatus first count
  else if part = 1 then rangeStatus 32 busStatus first count
  else if part = 2 then rangeStatus 4 talkStatus first count
  else if part = 3 then wholeStatus cueStatus State.shown
  else if part = 4 then wholeStatus fadeStatus State.shown
  else if part = 5 then wholeStatus clipStatus State.shown
  else if part = 6 then wholeStatus relayStatus State.shownPass
  else if part = 7 then wholeStatus linkStatus State.shown
  else if part = 8 then wholeStatus (messageStatus s.msg.replies.length) State.shown
  else refuse .range) s

end Sys2Proof.Machine
end

