-- ==== Sys2Proof/Machine/Bodies.lean ====
section
/-! DEFINITION. Message bodies: the bytes of a request (9.1, Table 9-3, R175, R178), and the reading of a completed body
into a request, or its refusal at steps 2 and 3 of R175. -/

namespace Sys2Proof.Machine

open Sys2Proof

/-! ### Writing a body -/

/-- A source field. -/
def RawSource.bytes (r : RawSource) : List U8 := [r.kind, r.index]
/-- A fade target field. -/
def RawTarget.bytes (r : RawTarget) : List U8 := [r.kind, r.first, r.second]
/-- A two-byte field. -/
def put2 (x : U16) : List U8 := bytes2 x.toNat
/-- A four-byte field. -/
def put4 (x : U32) : List U8 := bytes4 x.toNat
/-- An eight-byte field. -/
def put8 (x : U64) : List U8 := bytes8 x.toNat

/-- An INPUT entry: 16 bytes (Table 9-6). -/
def RawInput.bytes (r : RawInput) : List U8 :=
  RawSource.bytes r.source ++ RawSource.bytes r.spare ++ put2 r.trim ++ put4 r.lossThreshold ++ put4 r.restoreThreshold
    ++ [r.autoReturn, r.talkGroup]
/-- A BUS entry: 12 bytes. -/
def RawBus.bytes (r : RawBus) : List U8 :=
  [r.kind] ++ put2 r.gain ++ [r.mute, r.limiter] ++ put2 r.threshold ++ put4 r.release ++ [r.stopDuck]
/-- An OUTPUT entry: 3 bytes. -/
def RawOutput.bytes (r : RawOutput) : List U8 := RawSource.bytes r.source ++ [r.slot]
/-- A ZONE entry: 15 bytes. -/
def RawZone.bytes (r : RawZone) : List U8 :=
  [r.programme] ++ put2 r.level ++ put2 r.callLevel ++ put2 r.duckDepth ++ put4 r.attack ++ put4 r.release
/-- A TALK entry: 15 bytes. -/
def RawTalk.bytes (r : RawTalk) : List U8 :=
  [r.input] ++ put4 r.buses ++ put2 r.depth ++ put4 r.attack ++ put4 r.release
/-- The NODE entry: 23 bytes. -/
def RawNode.bytes (r : RawNode) : List U8 :=
  [r.group0, r.group1, r.group2, r.group3] ++ put4 r.guard ++ [r.reserve] ++ put4 r.holdLimit ++ put2 r.stopDepth
    ++ put8 r.enables
/-- A crosspoint window (R46). -/
def RawWindow.bytes (r : RawWindow) : List U8 := [r.inputFirst, r.inputLast, r.busFirst, r.busLast]
/-- The place of a TABLE READ (R179). -/
def ReadPlace.bytes : ReadPlace → List U8
  | .window w => RawWindow.bytes w
  | .range first count => [first, count]

/-- A cue action, kind first (Table 5-2, R175). -/
def RawAction.bytes : RawAction → List U8
  | .move t c f sh => [0] ++ RawTarget.bytes t ++ put2 c ++ put4 f ++ [sh]
  | .play v c g l => [1, v, c] ++ put2 g ++ [l]
  | .stop v f => [2, v] ++ put4 f
  | .route i a b => [3, i] ++ RawSource.bytes a ++ RawSource.bytes b
  | .call z p c k r => [4] ++ put2 z ++ [p, c, k, r]
  | .unknown kind => [kind]

/-- The fields of CUE STORE (R175). -/
def RawCue.bytes (r : RawCue) : List U8 :=
  put4 r.number ++ byte r.actions.length ++ [r.follow] ++ put4 r.wait ++ r.actions.flatMap RawAction.bytes

/-- The fields of CALL PLACE (R136). -/
def RawCall.bytes (r : RawCall) : List U8 :=
  [r.priority] ++ put2 r.zones ++ RawSource.bytes r.source ++ [r.ack, r.repeats] ++ put4 r.waitLimit ++ put4 r.ackTimeout
    ++ put4 r.maxOnAir

/-- The body of a message, its kind first (Table 9-4). -/
def requestBody : Request → List U8
  | .writeInput first es => [1, 1, first] ++ es.flatMap RawInput.bytes
  | .writeCrosspoint w codes => [1, 2] ++ RawWindow.bytes w ++ codes.flatMap put2
  | .writeBus first es => [1, 3, first] ++ es.flatMap RawBus.bytes
  | .writeOutput first es => [1, 4, first] ++ es.flatMap RawOutput.bytes
  | .writeZone first es => [1, 5, first] ++ es.flatMap RawZone.bytes
  | .writeTalk first es => [1, 6, first] ++ es.flatMap RawTalk.bytes
  | .writeVoice first codes => [1, 7, first] ++ codes.flatMap put2
  | .writeNode first es => [1, 8, first] ++ es.flatMap RawNode.bytes
  | .read table place => [2, table] ++ ReadPlace.bytes place
  | .readMeter first count => [2, 9, first, count]
  | .hold mode => [3, mode]
  | .cueStore cue => [4] ++ RawCue.bytes cue
  | .cueRemove n => [5] ++ put4 n
  | .cueRead n mode => [6] ++ put4 n ++ [mode]
  | .go n => [7] ++ put4 n
  | .standby n => [8] ++ put4 n
  | .halt => [9]
  | .resume => [10]
  | .callPlace call => [11] ++ RawCall.bytes call
  | .callEnd id => [12] ++ put2 id
  | .callCancel id => [13] ++ put2 id
  | .talk group setting => [14, group, setting]
  | .inputSelect input choice => [15, input, choice]
  | .capture clip source length => [16, clip] ++ RawSource.bytes source ++ put4 length
  | .captureAbort clip => [17, clip]
  | .clipRemove clip => [18, clip]
  | .voicePlay voice clip gain loop => [19, voice, clip] ++ put2 gain ++ [loop]
  | .voiceStop voice frames => [20, voice] ++ put4 frames
  | .status part first count => [21, part, first, count]
  | .eventFetch max => [22, max]
  | .flagsClear flags => [23] ++ put8 flags
  | .reset mode => [24, mode]

/-- The first byte of the body: the kind (Table 9-4). -/
def requestKind (r : Request) : U8 := (requestBody r).headD 0

/-! ### Reading a body -/

/-- A reader of fields: it takes bytes from the front, or finds too few. -/
abbrev Reader := StateT (List U8) Option

/-- One byte. -/
def get1 : Reader U8 := fun bs =>
  match bs with
  | [] => none
  | b :: rest => some (b, rest)

/-- Two bytes, most significant first. -/
def get2 : Reader U16 := do
  let a ← get1
  let b ← get1
  pure (a ++ b)

/-- Four bytes. -/
def get4 : Reader U32 := do
  let a ← get2
  let b ← get2
  pure (a ++ b)

/-- Eight bytes. -/
def get8 : Reader U64 := do
  let a ← get4
  let b ← get4
  pure (a ++ b)

/-- A field repeated n times. -/
def getMany {α : Type} (r : Reader α) : Nat → Reader (List α)
  | 0 => pure []
  | n + 1 => do
    let x ← r
    let xs ← getMany r n
    pure (x :: xs)

/-- A source field. -/
def getSource : Reader RawSource := do
  let k ← get1
  let i ← get1
  pure { kind := k, index := i }

/-- An INPUT entry. -/
def getInput : Reader RawInput := do
  let source ← getSource
  let spare ← getSource
  let trim ← get2
  let loss ← get4
  let restore ← get4
  let auto ← get1
  let group ← get1
  pure { source := source, spare := spare, trim := trim, lossThreshold := loss, restoreThreshold := restore
         autoReturn := auto, talkGroup := group }

/-- A BUS entry. -/
def getBus : Reader RawBus := do
  let kind ← get1
  let gain ← get2
  let mute ← get1
  let limiter ← get1
  let threshold ← get2
  let release ← get4
  let stop ← get1
  pure { kind := kind, gain := gain, mute := mute, limiter := limiter, threshold := threshold, release := release
         stopDuck := stop }

/-- An OUTPUT entry. -/
def getOutput : Reader RawOutput := do
  let source ← getSource
  let slot ← get1
  pure { source := source, slot := slot }

/-- A ZONE entry. -/
def getZone : Reader RawZone := do
  let programme ← get1
  let level ← get2
  let callLevel ← get2
  let depth ← get2
  let attack ← get4
  let release ← get4
  pure { programme := programme, level := level, callLevel := callLevel, duckDepth := depth, attack := attack
         release := release }

/-- A TALK entry. -/
def getTalk : Reader RawTalk := do
  let input ← get1
  let buses ← get4
  let depth ← get2
  let attack ← get4
  let release ← get4
  pure { input := input, buses := buses, depth := depth, attack := attack, release := release }

/-- The NODE entry. -/
def getNode : Reader RawNode := do
  let g0 ← get1
  let g1 ← get1
  let g2 ← get1
  let g3 ← get1
  let guard ← get4
  let reserve ← get1
  let limit ← get4
  let depth ← get2
  let enables ← get8
  pure { group0 := g0, group1 := g1, group2 := g2, group3 := g3, guard := guard, reserve := reserve, holdLimit := limit
         stopDepth := depth, enables := enables }

/-- A crosspoint window. -/
def getWindow : Reader RawWindow := do
  let a ← get1
  let b ← get1
  let c ← get1
  let d ← get1
  pure { inputFirst := a, inputLast := b, busFirst := c, busLast := d }

/-- A MOVE action after its kind. -/
def getMove : Reader RawAction := do
  let k ← get1
  let a ← get1
  let b ← get1
  let code ← get2
  let frames ← get4
  let sh ← get1
  pure (.move { kind := k, first := a, second := b } code frames sh)

/-- A PLAY action after its kind. -/
def getPlay : Reader RawAction := do
  let voice ← get1
  let clip ← get1
  let gain ← get2
  let loop ← get1
  pure (.play voice clip gain loop)

/-- A STOP action after its kind. -/
def getStop : Reader RawAction := do
  let voice ← get1
  let frames ← get4
  pure (.stop voice frames)

/-- A ROUTE action after its kind. -/
def getRoute : Reader RawAction := do
  let input ← get1
  let a ← getSource
  let b ← getSource
  pure (.route input a b)

/-- A CALL action after its kind. DESIGN CHOICE (log entry 10): priority and repeats take one byte each. -/
def getCallAction : Reader RawAction := do
  let zones ← get2
  let priority ← get1
  let clip ← get1
  let ack ← get1
  let repeats ← get1
  pure (.call zones priority clip ack repeats)

/-- An action, its kind first. The length of an action of unknown kind is not known: it takes the rest of the body, and the
cue is refused with RANGE by R82. -/
def getAction : Reader RawAction := do
  let kind ← get1
  if kind = 0 then getMove
  else if kind = 1 then getPlay
  else if kind = 2 then getStop
  else if kind = 3 then getRoute
  else if kind = 4 then getCallAction
  else do
    set ([] : List U8)
    pure (.unknown kind)

/-- The actions of a cue, up to the first of unknown kind. -/
def getActions : Nat → Reader (List RawAction)
  | 0 => pure []
  | n + 1 => do
    let a ← getAction
    match a with
    | .unknown kind => pure [.unknown kind]
    | a =>
      let rest ← getActions n
      pure (a :: rest)

/-- The fields of CUE STORE (R175). -/
def getCue : Reader RawCue := do
  let number ← get4
  let count ← get1
  let follow ← get1
  let wait ← get4
  let actions ← getActions count.toNat
  pure { number := number, follow := follow, wait := wait, actions := actions }

/-- The fields of CALL PLACE (R136). DESIGN CHOICE (log entry 10): priority and repeats take one byte each. -/
def getCall : Reader RawCall := do
  let priority ← get1
  let zones ← get2
  let source ← getSource
  let ack ← get1
  let repeats ← get1
  let wait ← get4
  let timeout ← get4
  let limit ← get4
  pure { priority := priority, zones := zones, source := source, ack := ack, repeats := repeats, waitLimit := wait
         ackTimeout := timeout, maxOnAir := limit }

/-- The whole body is exactly the fields read, or LENGTH (R175 step 3). -/
def exactly (r : Reader Request) (bs : List U8) : Except ResultCode Request :=
  match r bs with
  | some (x, []) => .ok x
  | _ => .error .length

/-- The entries after the place of a TABLE WRITE: a whole number of them, or LENGTH (R178 step 2). -/
def wholeEntries {α : Type} (size : Nat) (r : Reader α) (f : List α → Request) (bs : List U8) : Except ResultCode Request :=
  if bs.length % size = 0 then exactly (do let es ← getMany r (bs.length / size); pure (f es)) bs else .error .length

/-- A TABLE WRITE of a table placed by a first index. -/
def indexed {α : Type} (size : Nat) (r : Reader α) (f : U8 → List α → Request) (bs : List U8) : Except ResultCode Request :=
  match bs with
  | [] => .error .length
  | first :: rest => wholeEntries size r (f first) rest

/-- The body of a TABLE WRITE after its kind (R178 steps 1 and 2). DESIGN CHOICE (log entry 27): a bad table id gets BAD_TABLE even
where no place follows it. -/
def parseWrite (bs : List U8) : Except ResultCode Request :=
  match bs with
  | [] => .error .length
  | t :: rest =>
    if t = 1 then indexed 16 getInput .writeInput rest
    else if t = 2 then
      match getWindow rest with
      | some (w, codes) => wholeEntries 2 get2 (.writeCrosspoint w) codes
      | none => .error .length
    else if t = 3 then indexed 12 getBus .writeBus rest
    else if t = 4 then indexed 3 getOutput .writeOutput rest
    else if t = 5 then indexed 15 getZone .writeZone rest
    else if t = 6 then indexed 15 getTalk .writeTalk rest
    else if t = 7 then indexed 2 get2 .writeVoice rest
    else if t = 8 then indexed 23 getNode .writeNode rest
    else .error .badTable

/-- The body of a TABLE READ after its kind (R179). DESIGN CHOICE (log entry 27): a table id that is not CROSSPOINT's has a range
after it, so that a bad one without it gets LENGTH. -/
def getRead : Reader Request := do
  let t ← get1
  if t = 2 then do
    let w ← getWindow
    pure (.read t (.window w))
  else do
    let first ← get1
    let count ← get1
    if t = 9 then pure (.readMeter first count) else pure (.read t (.range first count))

/-- Three one-byte fields. -/
def getThree (f : U8 → U8 → U8 → Request) : Reader Request := do
  let a ← get1
  let b ← get1
  let c ← get1
  pure (f a b c)

/-- Two one-byte fields. -/
def getTwo (f : U8 → U8 → Request) : Reader Request := do
  let a ← get1
  let b ← get1
  pure (f a b)

/-- The fields of CUE READ. -/
def getCueRead : Reader Request := do
  let n ← get4
  let mode ← get1
  pure (.cueRead n mode)

/-- The fields of CAPTURE. -/
def getCapture : Reader Request := do
  let clip ← get1
  let source ← getSource
  let length ← get4
  pure (.capture clip source length)

/-- The fields of VOICE PLAY. -/
def getVoicePlay : Reader Request := do
  let voice ← get1
  let clip ← get1
  let gain ← get2
  let loop ← get1
  pure (.voicePlay voice clip gain loop)

/-- The fields of VOICE STOP. -/
def getVoiceStop : Reader Request := do
  let voice ← get1
  let frames ← get4
  pure (.voiceStop voice frames)

/-- A body after its kind byte, by the kind (Table 9-4). -/
def parseKind (kind : Nat) : List U8 → Except ResultCode Request :=
  match kind with
  | 1 => parseWrite
  | 2 => exactly getRead
  | 3 => exactly (.hold <$> get1)
  | 4 => exactly (.cueStore <$> getCue)
  | 5 => exactly (.cueRemove <$> get4)
  | 6 => exactly getCueRead
  | 7 => exactly (.go <$> get4)
  | 8 => exactly (.standby <$> get4)
  | 9 => exactly (pure .halt)
  | 10 => exactly (pure .resume)
  | 11 => exactly (.callPlace <$> getCall)
  | 12 => exactly (.callEnd <$> get2)
  | 13 => exactly (.callCancel <$> get2)
  | 14 => exactly (getTwo .talk)
  | 15 => exactly (getTwo .inputSelect)
  | 16 => exactly getCapture
  | 17 => exactly (.captureAbort <$> get1)
  | 18 => exactly (.clipRemove <$> get1)
  | 19 => exactly getVoicePlay
  | 20 => exactly getVoiceStop
  | 21 => exactly (getThree .status)
  | 22 => exactly (.eventFetch <$> get1)
  | 23 => exactly (.flagsClear <$> get8)
  | 24 => exactly (.reset <$> get1)
  | _ => fun _ => .error .unknownKind

/-- A completed body: its request, or the refusal of steps 2 and 3 of R175. -/
def parseBody (bs : List U8) : Except ResultCode Request :=
  match bs with
  | [] => .error .length
  | kind :: rest => parseKind kind.toNat rest

end Sys2Proof.Machine
end

