-- ==== Sys2Proof/Machine/Messages.lean ====
section
/-! DEFINITION. The message controller (Chapter 9): the request assembler, completion and execution of messages, the requests
taken at a boundary, EVENT FETCH, FLAGS CLEAR, the resets, and the answer cell. -/

namespace Sys2Proof.Machine

open Sys2Proof

/-! ### EVENT FETCH and FLAGS CLEAR (R185) -/

/-- EVENT FETCH: the oldest records leave the queue (R185). -/
def fetchEvents (max : U8) : Handler := fun s =>
  let taken := s.msg.events.take (min Config.maxFetch max.toNat)
  let left := s.msg.events.drop (min Config.maxFetch max.toNat)
  ({ code := .ok
     data := byte taken.length ++ byte left.length ++ yesNo (s.msg.conditions.getLsbD 0)
       ++ taken.flatMap EventRecord.bytes },
    s.onMsg fun m => { m with events := left })

/-- FLAGS CLEAR: the named conditions become CLEAR, and with them the per-subject flags of INPUT_CLIP, BUS_CLIP and LIMITING
(R40, R59, R77, R185). DESIGN CHOICE (log entry 10): flag k of the message, and condition k of the reply, is bit k of the 8-byte
value. -/
def clearFlags (flags : U64) : Handler := fun s =>
  let names (k : EventKind) : Bool := flags.getLsbD k.value
  ({ code := .ok, data := bytes8 s.msg.conditions.toNat },
    { s with
      msg := { s.msg with conditions := s.msg.conditions &&& ~~~flags }
      inputs := table fun i => if names .inputClip then { s.inputs[i] with clip := false } else s.inputs[i]
      mix := { s.mix with
        buses := table fun b =>
          { s.mix.buses[b] with
            clip := s.mix.buses[b].clip && !names .busClip
            limiting := s.mix.buses[b].limiting && !names .limiting } } })

/-! ### Messages settled at execution (Table 9-4) -/

/-- The kinds that have no effect when sent to a group or to broadcast (Table 9-4). -/
def readOnly : Request → Bool
  | .read _ _ | .readMeter _ _ | .cueRead _ _ | .status _ _ _ | .eventFetch _ => true
  | _ => false

/-- A request settled at execution: its owner checks it and carries it out (R175 step 5). The kinds that `settling` leaves for a
boundary or a relay pass do not come here. -/
def settleNow (o : Origin) : Request → Handler
  | .writeInput first es => writeInput first es
  | .writeCrosspoint w codes => writeCrosspoint w codes
  | .writeBus first es => writeBus first es
  | .writeOutput first es => writeOutput first es
  | .writeZone first es => writeZone first es
  | .writeTalk first es => writeTalk first es
  | .writeVoice first codes => writeVoice first codes
  | .writeNode first es => writeNode first es
  | .read t place => readTable t place
  | .readMeter first count => readMeter first count
  | .hold mode => holdMessage mode
  | .cueStore cue => cueStore cue
  | .cueRemove n => cueRemove n
  | .cueRead n mode => cueRead n mode
  | .callPlace call => placeCallMessage o call
  | .talk group setting => talkMessage group setting
  | .inputSelect input choice => selectInput input choice
  | .capture clip source length => startCapture clip source length
  | .captureAbort clip => abortCaptureMessage clip
  | .clipRemove clip => removeClip clip
  | .status part first count => readStatus part first count
  | .eventFetch max => fetchEvents max
  | .flagsClear flags => clearFlags flags
  | .go _ | .standby _ | .halt | .resume | .callEnd _ | .callCancel _ | .voicePlay _ _ _ _ | .voiceStop _ _ | .reset _ =>
    refuse .range

/-! ### Messages taken at a boundary (R87, R124, R140, R187) -/

/-- When a request is settled (Table 9-4). -/
inductive Settling where
  /-- At execution. -/
  | now
  /-- Taken by its owner at the next boundary. -/
  | boundary
  /-- A RESET, taken by every block at the next boundary. -/
  | reset
  /-- CALL END or CALL CANCEL, taken in step 2 of the next relay pass. -/
  | pass (cancel : Bool) (id : Nat)
  deriving DecidableEq, Repr

/-- When a request is settled (Table 9-4). A RESET with a mode outside its list makes no reset, and waits with the other requests
of the boundary, where it is checked (R175 step 5; log entry 19). -/
def settling : Request → Settling
  | .go _ | .standby _ | .halt | .resume | .voicePlay _ _ _ _ | .voiceStop _ _ => .boundary
  | .reset mode => if 2 ≤ mode.toNat then .boundary else .reset
  | .callEnd id => .pass false id.toNat
  | .callCancel id => .pass true id.toNat
  | _ => .now

/-- The taking of a GO, STANDBY, HALT, RESUME, VOICE PLAY or VOICE STOP by its owner (R87, R124), and of a RESET with a mode outside
its list, which is refused with RANGE (R175, R187; log entry 19). -/
def takeRequest (o : Origin) : Request → Handler
  | .go n => fun s => s.takeGo (Arrival.ofOrigin o) (optionalCue n)
  | .standby n => takeStandby n
  | .halt => takeHalt
  | .resume => takeResume
  | .voicePlay voice clip gain loop => voicePlay voice clip gain loop
  | .voiceStop voice frames => voiceStop voice frames
  | .reset _ => refuse .range
  | _ => fun s => ({ code := .ok }, s)

/-- Take one waiting message and write its result into its place. -/
def State.takeWaiting (s : State) (w : Waiting) : State :=
  let (result, s1) := takeRequest w.origin w.request s
  s1.answer w.place result

/-- Take every waiting message in the order in which the messages completed (R87). -/
def State.takeRequests (s : State) : State :=
  s.msg.waiting.foldl State.takeWaiting (s.onMsg fun m => { m with waiting := [] })

/-- A message that has a place, or needs none, is handed to its owner: carried out, or left for the boundary (R175 step 5). -/
def State.handOver (s : State) (o : Origin) (place : Option Nat) (r : Request) : State :=
  match settling r with
  | .now =>
    let (result, s1) := settleNow o r s
    s1.answer place result
  | .boundary => s.onMsg fun m => { m with waiting := m.waiting ++ [{ origin := o, place := place, request := r }] }
  | .reset => s.onMsg fun m => { m with resets := m.resets ++ [{ origin := o, place := place, request := r }] }
  | .pass cancel id =>
    s.onRelay fun q => { q with requests := q.requests ++ [{ cancel := cancel, id := id, place := place }] }

/-- A message to a group or to broadcast of a kind marked "no effect" is dropped (R175 step 4). -/
def dropped (o : Origin) (r : Request) : Bool :=
  match o with
  | .addressed _ => false
  | _ => readOnly r

/-! ### Completion and execution (R175, R176) -/

/-- A message body completes at this boundary: it takes its place and waits to be executed after the boundary's work, or is
discarded (R173, R175, R176). -/
def State.complete (s : State) (o : Origin) (body : List U8) : State :=
  match s.takePlace o (body.headD 0) with
  | (none, s1) => s1
  | (some place, s1) => s1.onMsg fun m => { m with completed := some { origin := o, place := place, body := body } }

/-- After every other work of a boundary the blocks are kept for STATUS READ (R186), and the message that completed there is
executed (R175). -/
def State.executeCompleted (s : State) : State :=
  match s.msg.completed with
  | none => s.show
  | some c =>
    let s1 := s.show.onMsg fun m => { m with completed := none }
    match parseBody c.body with
    | .error code => s1.answer c.place { code := code }
    | .ok r => if dropped c.origin r then s1 else s1.handOver c.origin c.place r

/-! ### Resets (R187) -/

/-- The meters and the per-subject clip and limiting flags are cleared (R44, R62, R79). -/
def State.clearMetersAndFlags (s : State) : State :=
  { s with
    inputs := table fun i => { s.inputs[i] with meter := 0, clip := false }
    mix := { s.mix with
      buses := table fun b => { s.mix.buses[b] with meter := 0, clip := false, limiting := false } } }

/-- Warm reset of the message controller, the meters and the flags (R187, Table 9-9). Messages taken at a boundary and not
yet taken stay; their places are gone. -/
def State.warmReset (s : State) : State :=
  s.clearMetersAndFlags.onMsg fun m =>
    { m with
      assembler := none, replies := [], holdOpen := false, holdAge := 0, staged := [], events := [], conditions := 0 }

/-- A warm RESET's own reply, which alone its reply queue keeps (Table 9-9). -/
def State.answerReset (s : State) (w : Waiting) : State :=
  match w.origin, w.place with
  | .addressed tag, some p =>
    s.onMsg fun m => { m with
      replies := [{ place := p, tag := tag, body := some (byte 0), completedAt := s.boundaries, cellsSent := 0 }] }
  | _, _ => s

/-- Show reset: the cue engine, the clip player and the relay controller act together, and one SHOW_RESET is posted (R110,
R130, R155, R187). It stands in the place of the relay pass, so the blocks are kept for STATUS READ of the relay (log entry
10). -/
def State.showReset (s : State) : State := (s.resetCues.resetVoices.resetCalls).showPass.post showResetPost

/-- It is a RESET with mode WARM (0). -/
def Waiting.isWarm (w : Waiting) : Bool := w.request == .reset 0

/-- Take one RESET with mode WARM (R187). -/
def State.takeWarmReset (s : State) (w : Waiting) : State := s.warmReset.answerReset w

/-- Take one RESET with mode SHOW (R187); when a warm reset of the boundary has discarded its place, its result goes into no
reply (R176; log entry 14). -/
def State.takeShowReset (s : State) (w : Waiting) : State := s.showReset.answer w.place { code := .ok }

/-- Take the warm RESETs that wait for this boundary (R187). -/
def State.warmResets (s : State) : State :=
  (s.msg.resets.filter Waiting.isWarm).foldl State.takeWarmReset
    (s.onMsg fun m => { m with resets := m.resets.filter fun w => !w.isWarm })

/-- Take the show RESETs that wait for this boundary (R187). -/
def State.showResets (s : State) : State :=
  (s.msg.resets.filter fun w => !w.isWarm).foldl State.takeShowReset
    (s.onMsg fun m => { m with resets := m.resets.filter Waiting.isWarm })

/-! ### The assembler (R172 to R174) -/

/-- How the node takes a cell with this destination, if it does (R172). -/
def State.cellOrigin (s : State) (c : Cell) : Option Origin :=
  if s.msg.address = some c.address then some (.addressed c.tag)
  else if c.address = Config.broadcastAddress then some .broadcast
  else if s.takes (.group c.address) then some (.group c.address)
  else none

/-- The origin of a partial message: its destination and the tag of its START cell. -/
def State.partialOrigin (s : State) (p : Partial) : Origin :=
  if s.msg.address = some p.destination then .addressed p.tag
  else if p.destination = Config.broadcastAddress then .broadcast
  else .group p.destination

/-- Discard the partial message, if any, posting the reason with its tag, or with the given tag when there is none and a
post is due all the same (R174). -/
def State.discardPartial (s : State) (r : FragmentReason) : State :=
  match s.msg.assembler with
  | some p => (s.onMsg fun m => { m with assembler := none }).post (fragmentPost r p.tag)
  | none => s

/-- The partial message goes on, or is complete when its newest cell carries END (R173). -/
def State.advance (s : State) (c : Cell) (p : Partial) : State :=
  if c.ends then (s.onMsg fun m => { m with assembler := none }).complete (s.partialOrigin p) p.body
  else s.onMsg fun m => { m with assembler := some p }

/-- A message of more than 10 cells: an addressed one takes a place and is answered LENGTH, another is dropped with
FRAGMENT_DISCARDED (R174). -/
def State.overlong (s : State) (p : Partial) : State :=
  match s.partialOrigin p with
  | .addressed tag =>
    match (s.onMsg fun m => { m with assembler := none }).takePlace (.addressed tag) (p.body.headD 0) with
    | (some place, s1) => s1.answer place { code := .length }
    | (none, s1) => s1
  | _ => s.discardPartial .length

/-- A taken cell without START while a partial message is held (R173 cases 4 to 6). -/
def State.continueMessage (s : State) (c : Cell) (p : Partial) : State :=
  if c.address ≠ p.destination ∨ c.sequence ≠ p.expected then s.discardPartial .sequence
  else if Config.maxCells ≤ p.cells then s.overlong p
  else s.advance c { p with cells := p.cells + 1, expected := p.expected + 1, body := p.body ++ c.content }

/-- A taken cell acts on the assembler (R173). -/
def State.assemble (s : State) (c : Cell) : State :=
  if Config.cellBody < c.length.toNat then
    match s.msg.assembler with
    | some _ => s.discardPartial .cellLength
    | none => s.post (fragmentPost .cellLength c.tag)
  else if c.start then
    (s.discardPartial .newStart).advance c
      { destination := c.address, tag := c.tag, cells := 1, expected := 1, body := c.content }
  else
    match s.msg.assembler with
    | none => s
    | some p => s.continueMessage c p

/-- The request cell of a frame that passed its check and is not DAMAGED is taken when it is for this node (R166, R172). -/
def State.takeCell (s : State) : State :=
  match s.link.frame with
  | some f =>
    if s.link.checked && !f.damaged && (s.cellOrigin f.request).isSome then s.assemble f.request else s
  | none => s

/-- The report of a link loss reaches the assembler (R170, R174). -/
def State.lossToAssembler (s : State) : State := s.discardPartial .link

/-! ### The answer cell (R177) -/

/-- The next cell of a reply, and whether it is the last. -/
def replyCell (owner : U8) (r : Reply) (body : List U8) : Cell × Bool :=
  let content := (body.drop (Config.cellBody * r.cellsSent)).take Config.cellBody
  let last := decide (body.length ≤ Config.cellBody * (r.cellsSent + 1))
  (Cell.ofReply owner r.tag (r.cellsSent == 0) last r.cellsSent content, last)

/-- The reply at the head is complete since an earlier boundary: its body (R177). -/
def State.headReply (s : State) : Option (Reply × List U8) :=
  match s.msg.replies with
  | [] => none
  | r :: _ =>
    match r.body with
    | some body => if r.completedAt < s.boundaries then some (r, body) else none
    | none => none

/-- The answer cell of the frame at hand: a cell of the head reply in an empty answer cell that is offered, else the cell as it
arrived (R177). -/
def State.placeAnswer (s : State) (offered : Bool) (arrived : Cell) : Cell × State :=
  match s.msg.address, s.headReply with
  | some owner, some (r, body) =>
    if offered && arrived.address == 0 then
      let (cell, last) := replyCell owner r body
      (cell, s.onMsg fun m => { m with
        replies := if last then m.replies.tail else { r with cellsSent := r.cellsSent + 1 } :: m.replies.tail })
    else (arrived, s)
  | _, _ => (arrived, s)

end Sys2Proof.Machine
end

