-- ==== Sys2Proof/Machine/Lines.lean ====
section
/-! DEFINITION. The local port unit (Chapter 10): the common debounce, the serial blocks and the outputs. -/

namespace Sys2Proof.Machine

open Sys2Proof

/-! ### Debounce (R189, R190) -/

/-- One sample of a line's pin: the candidate and the run move on; a run of 20 waits to be taken (R189). -/
def Line.sample (raw : Bool) (l : Line) : Line :=
  if l.taken = some raw then { l with candidate := none, run := 0 }
  else if l.candidate = some raw then { l with run := min Config.debounceRun (l.run + 1) }
  else { l with candidate := some raw, run := 1 }

/-- The run has reached 20. -/
def Line.ready (l : Line) : Bool := l.candidate.isSome && decide (Config.debounceRun ≤ l.run)

/-- A ready candidate becomes the taken level (R189). -/
def Line.take (l : Line) : Line := if l.ready then { taken := l.candidate, candidate := none, run := 0 } else l

/-- The taking is a pressed edge: from RELEASED to ASSERTED, never from NOT_TAKEN (R189). -/
def Line.pressing (l : Line) : Bool := l.ready && l.taken == some false && l.candidate == some true

/-- Sample every pin once (R189). -/
def Ports.sample (pins : Pins) (p : Ports) : Ports :=
  { p with
    go := p.go.sample pins.go
    talk := table fun g => p.talk[g].sample (pins.talk.getLsbD g.val)
    ack := table fun z => p.ack[z].sample (pins.ack.getLsbD z.val)
    presence := table fun k => p.presence[k].sample (pins.presence.getLsbD k.val) }

/-- Take the level of one line, if it is ready; a pressed edge of the GO line is handed to the cue engine (R189, R190). -/
def Ports.takeLine (p : Ports) : LineId → Ports
  | .go => { p with go := p.go.take, goPressed := p.goPressed || p.go.pressing }
  | .talk g => { p with talk := alter p.talk g Line.take }
  | .ack z => { p with ack := alter p.ack z Line.take }
  | .presence k => { p with presence := alter p.presence k Line.take }

/-- The line with this name. -/
def Ports.line (p : Ports) : LineId → Line
  | .go => p.go
  | .talk g => p.talk[g]
  | .ack z => p.ack[z]
  | .presence k => p.presence[k]

/-- Every line. -/
def allLines : List LineId :=
  [.go] ++ (List.finRange 4).map .talk ++ (List.finRange 16).map .ack ++ (List.finRange 2).map .presence

/-- Take the level of every line that is ready (R189). -/
def State.takeLevels (s : State) : State := s.onPorts fun p => allLines.foldl Ports.takeLine p

/-! ### Serial blocks (R188) -/

/-- The block handed in: the 48 most recent samples, zeros in front of fewer (R188). -/
def inputBlock (samples : List Sample) : Block :=
  let recent := samples.drop (samples.length - 48)
  table fun n => ((List.replicate (48 - recent.length) 0 ++ recent).getD n.val 0).toInt

/-- What the local side brings to a boundary: the serial blocks, the clocks and the sampled pins (R188, R189). While the clocks
have stood still no sample has been received, and the blocks are zeros. -/
def Ports.openBoundary (env : Env) (clocks : Clocking) (p : Ports) : Ports :=
  { p.sample env.pins with
    localIn := table fun n => if p.clocks = .stopped then silence else inputBlock env.audio[n]
    clocks := clocks, goPressed := false }

/-- The previous frame's output that a source names (R56, R57). -/
def Mix.sourceOut (m : Mix) : OutSource → Block
  | .none => silence
  | .bus b => m.busOut[b]
  | .zone z => m.zoneOut[z]

/-- Hand the 24 local outputs the mix of the previous frame (R56, R58). -/
def State.driveOutputs (s : State) : State :=
  s.onPorts fun p => { p with localOut := table fun n => s.mix.sourceOut s.mix.outputs[n.val].source }

end Sys2Proof.Machine
end

