-- ==== Sys2Proof/Machine/Link.lean ====
section
/-! DEFINITION. The link interface (Chapter 8): acquisition, the link's part of a boundary, and the forwarded frame. -/

namespace Sys2Proof.Machine

open Sys2Proof

/-- A count of the link interface goes up by 1 and stops at 65,535 (R159, R160, R163, R168). -/
def countUp (n : Nat) : Nat := min Config.runStop (n + 1)

/-! ### Arrivals that are no boundary (R159 to R161, R164, R165, R168) -/

/-- A frame taken on the downstream port (R160). -/
def State.dropReverse (s : State) (p : Port) : State :=
  (s.onLink fun l => { l with reverse := countUp l.reverse }).postOnce (reversePost p)

/-- A frame dropped for its hop count (R159). -/
def State.dropHops (s : State) : State := s.onLink fun l => { l with hopDrop := countUp l.hopDrop }

/-- A failed arrival is counted, and posted with the link state when the condition is CLEAR (R168). -/
def State.countDamaged (s : State) (l : LinkState) : State :=
  (s.onLink fun k => { k with damaged := countUp k.damaged }).postOnce (damagedPost l)

/-- A good arrival in UNLOCKED or LOST: REACQUIRING with a count of 1; in UNLOCKED it fixes the upstream port (R161, R164). -/
def Link.begin (p : Port) (l : Link) : Link :=
  { l with state := .reacquiring, reacquire := 1, upstream := some p, timerRunning := true }

/-- A good arrival in REACQUIRING: the 100th in a row makes the link LOCKED (R164, R165). -/
def Link.again (l : Link) : Link :=
  if Config.lockCount ≤ l.reacquire + 1 then
    { l with state := .locked, linkTimed := false, reacquire := Config.lockCount, timerRunning := true, lockedFor := 0
             locks := l.locks + 1 }
  else { l with reacquire := l.reacquire + 1, timerRunning := true }

/-- Messages reach the node: the link is LOCKED and LINK-TIMED (R165, R170). -/
def Link.open (l : Link) : Bool := l.state == .locked && l.linkTimed

/-- The link is LOST with a count of 0 (R164). -/
def Link.drop (running : Bool) (l : Link) : Link :=
  { l with state := .lost, linkTimed := false, reacquire := 0, timerRunning := running }

/-- An arrival in UNLOCKED, LOST or REACQUIRING (R161, R164). -/
def State.acquire (s : State) (p : Port) (good : Bool) : State :=
  match s.link.state, good with
  | .unlocked, true | .lost, true => s.onLink (Link.begin p)
  | .reacquiring, true => s.onLink Link.again
  | .unlocked, false | .lost, false => (s.countDamaged s.link.state).onLink fun l => { l with timerRunning := true }
  | .reacquiring, false => (s.countDamaged s.link.state).onLink (Link.drop true)
  | .locked, _ => s

/-- The arrival timer reaches 3 ms with the link not LOCKED: in REACQUIRING the link becomes LOST, and in every state the timer
is stopped until the next arrival (R164). -/
def Link.timeOut (l : Link) : Link :=
  match l.state with
  | .reacquiring => l.drop false
  | .unlocked | .lost => { l with timerRunning := false }
  | .locked => l

/-! ### The link's part of a boundary (R162 to R166, R169) -/

/-- A boundary while LOCKED counts toward the detail of LINK_LOST (R163). -/
def Link.lockedOn (l : Link) : Nat := if l.state = .locked then l.lockedFor + 1 else l.lockedFor

/-- No frame is at hand: every slot is invalid (R24, R169). -/
def Link.withoutFrame (l : Link) : Link :=
  { l with
    restoring := false, frame := none, checked := false, slots := Vector.replicate 64 silence
    slotValid := Vector.replicate 64 false, sent := none }

/-- A LOCAL-TIMED boundary (R169). -/
def Link.localBoundary (l : Link) : Link :=
  { l.withoutFrame with counter := l.counter + 1, lockedFor := l.lockedOn }

/-- The boundary at which the link becomes LOST (R163). DESIGN CHOICE (log entry 39): the counter goes up by 1 from where it stands;
in LOCKED before the first LINK-TIMED boundary the LOCAL-TIMED boundaries of R169 have moved it since the last arrival, from whose
value R163 counts. -/
def Link.lossBoundary (l : Link) : Link :=
  { (l.withoutFrame.drop false) with counter := l.counter + 1, loss := countUp l.loss }

/-- A LINK-TIMED boundary: the counter, the slots as the frame brings them, and the count of a failed arrival (R162, R165, R166,
R168). -/
def Link.frameBoundary (f : Frame) (l : Link) : Link :=
  let good := f.passes
  { l with
    linkTimed := true, reacquire := 0, timerRunning := true, lockedFor := l.lockedOn
    restoring := !l.linkTimed
    damaged := if good then l.damaged else countUp l.damaged
    counter := if good then f.number else l.counter + 1
    frame := some f, checked := good
    slots := table fun i => f.slot i
    slotValid := table fun i => good && !f.damaged && f.valid i
    sent := none }

/-- The events of a LINK-TIMED boundary: LINK_RESTORED at the first, which says whether this is the first lock since cold reset,
and DAMAGED_FRAME of a failed arrival while its condition is CLEAR (R165, R168). DESIGN CHOICE (log entry 31): where both come,
LINK_RESTORED comes first. -/
def State.postArrival (s : State) : State :=
  let s1 := if s.link.restoring then s.post (linkRestoredPost s.link.upstream (decide (s.link.locks ≤ 1))) else s
  if s.link.frame.isSome && !s.link.checked then s1.postOnce (damagedPost .locked) else s1

/-- The event of the boundary at which the link becomes LOST (R163). -/
def State.postLoss (s : State) : State := s.post (linkLostPost s.link.lockedFor)

/-! ### Forwarding (R57, R167) -/

/-- The send entries with their slots and blocks (R57). -/
def sendsOf (m : Mix) : List (Fin 64 × Block) :=
  ((List.finRange 40).filter fun o => decide (24 ≤ o.val) && m.outputs[o].source != .none).map fun o =>
    (m.outputs[o].slot, m.sourceOut m.outputs[o].source)

/-- Write one send into a frame: its samples and its validity flag (R57, R167). -/
def writeSend (f : Frame) (x : Fin 64 × Block) : Frame :=
  { f with
    audio := put f.audio x.1 (table fun n => toSample x.2[n])
    validity := setFlag f.validity x.1.val true }

/-- The frame as forwarded, with the given answer cell (R167). -/
def State.forwardedFrame (s : State) (f : Frame) (answer : Cell) : Frame :=
  let damaged := !s.link.checked || f.damaged
  let sent := (sendsOf s.mix).foldl writeSend
    { f with
      number := s.link.counter
      flags := if damaged then 1 else 0
      hop := BitVec.ofNat 8 (min Config.hopLimit (f.hop.toNat + 1))
      answer := answer
      attention := match s.msg.address with
        | some a => setFlag f.attention a.toNat (!s.msg.events.isEmpty)
        | none => f.attention }
  { sent with check := checkValue sent.covered }

/-- Place an answer cell and forward the frame (R166, R167, R177). -/
def State.forward (s : State) : State :=
  match s.link.frame with
  | some f =>
    let (answer, s1) := s.placeAnswer (s.link.checked && !f.damaged) f.answer
    s1.onLink fun l => { l with sent := some (s1.forwardedFrame f answer) }
  | none => s

end Sys2Proof.Machine
end

