-- ==== Sys2Proof/Machine/Boundary.lean ====
section
/-! DEFINITION. The frame boundary: its items, which must come before which, the taking of an item, and the opening of
each kind of boundary (0.5.1, R162, R163, R169). -/

namespace Sys2Proof.Machine

open Sys2Proof

/-! ### Items -/

/-- Run an item's work if it is still due, and only once. -/
def State.runOnce (s : State) (it : Item) (work : State → State) : State :=
  if s.isDue it then work (s.onDue fun d => d.filter fun x => x != it) else s

/-- The meters of inputs and buses that are still due, together: the posts of their clips reach the message controller among each
other by the turns that the command gives for them (R184). -/
def State.takeMeters (s : State) : State :=
  let held := s.onMsg fun m => { m with late := m.frameLate, frameLate := [] }
  ((held.runOnce .inputMeters State.meterInputs).runOnce .busMeters State.meterBuses).latePosts

/-- What each item does. -/
def runItem : Item → State → State
  | .levels => State.takeLevels
  | .ends => State.endPlaybacks
  | .node => State.applyNode
  | .linkEvents => State.postArrival
  | .lossEvent => State.postLoss
  | .stopFades => State.completeStops
  | .reserve => State.takeReserve
  | .completions => State.completeFades
  | .writes => State.applyWrites
  | .voiceWrites => State.applyVoiceWrites
  | .talks => State.applyTalks
  | .warmReset => State.warmResets
  | .showReset => State.showResets
  | .requests => State.takeRequests
  | .goLine => State.takeGoLine
  | .follow => State.stepFollow
  | .capture => State.stepCapture
  | .lossCapture => State.lossToCapture
  | .lossPartial => State.lossToAssembler
  | .hold => State.ageHold
  | .relayEnds => State.relayEnds
  | .relayRequests => State.relayRequests
  | .relayPresses => State.relayPresses
  | .relayAcks => State.relayAcks
  | .relayStops => State.relayStops
  | .relaySchedule => State.relaySchedule
  | .relayWaits => State.relayWaits
  | .relayDucks => State.relayDucks
  | .relaySpeak => State.relaySpeak
  | .relayLamps => State.relayLamps
  | .count => State.countInputs
  | .transitions => State.takeTransitions
  | .carry => State.carryInputs
  | .followTiming => State.startTiming
  | .keys => fun s => s.formKeys.setGates.moveBuses
  | .transport => State.pauseVoices
  | .outputs => State.driveOutputs
  | .cell => State.takeCell
  | .forward => State.forward
  | .latePosts => State.latePosts
  | .execute => State.executeCompleted
  | .inputMeters => State.meterInputs
  | .busMeters => State.meterBuses
  | .meters => State.takeMeters

/-- The default order of a boundary's items. -/
def allItems : List Item :=
  [.levels, .ends, .node, .linkEvents, .lossEvent, .stopFades, .reserve, .completions, .writes, .voiceWrites, .talks, .warmReset, .showReset
   , .requests, .goLine, .follow, .lossCapture, .lossPartial, .capture, .relayEnds, .relayRequests, .relayPresses, .relayAcks
   , .relayStops, .relaySchedule, .relayWaits, .relayDucks, .relaySpeak, .relayLamps, .count, .transitions, .carry
   , .followTiming, .keys, .transport, .outputs, .cell, .forward, .hold, .latePosts, .execute
   , .meters, .inputMeters, .busMeters]

/-- Every item but some. -/
def allBut (some : List Item) : List Item := allItems.filter fun x => !some.contains x

/-- The items before any other work but a write of a voice's gain: the levels taken at the boundary (R190), the playbacks that
end (R125), and the NODE settings (R172, R180). -/
def endItems : List Item := [.levels, .ends, .node]

/-- The items before any request: those, the STOP fades that end a playback (R122), and the reserve (R125). -/
def firstItems : List Item := endItems ++ [.stopFades, .reserve]

/-- The steps of the relay pass in their order (R138). -/
def relayItems : List Item :=
  [.relayEnds, .relayRequests, .relayPresses, .relayAcks, .relayStops, .relaySchedule, .relayWaits, .relayDucks
   , .relaySpeak, .relayLamps]

/-- The steps of the relay pass before one of them (R138). -/
def earlierRelay (it : Item) : List Item := relayItems.takeWhile fun x => x != it

/-- The requests that write inputs and change HELD and the voices. -/
def requestItems : List Item := [.writes, .requests, .goLine, .follow]

/-- The items that must come before an item, when they are due. Every order that keeps to this is one the manual allows
(log entry 2). The zone ducks use the zone entry of their boundary, so its writes come before them (R132), but a write of a
voice's gain may come before or after a start on that voice, a call's or the pending one's (R121, R123). An event of a block whose
posts come late reaches the queue at `latePosts`, by the turns the command gives, whatever order the work itself must keep (R38,
R184). The frame's meters, which `meters` takes together, need not wait for a warm reset, so that its clear and their update may
come in either order (R187), nor for the message that completes at the boundary, so that a read and their update may (R42, R60). -/
def needs : Item → List Item
  | .levels => []
  | .voiceWrites => [.levels]
  | .ends | .node => [.levels]
  | .linkEvents | .lossEvent => [.levels, .node]
  | .stopFades | .completions | .writes | .latePosts => endItems
  | .reserve => endItems ++ [.stopFades]
  | .talks | .warmReset | .showReset | .requests | .goLine | .follow | .capture | .lossCapture | .lossPartial | .hold =>
    firstItems
  | .count => firstItems ++ requestItems
  | .transitions => firstItems ++ requestItems ++ [.count]
  | .carry => firstItems ++ requestItems ++ [.count, .transitions]
  | .keys => firstItems ++ requestItems ++ [.talks, .count, .transitions, .carry]
  | .followTiming | .transport => firstItems ++ requestItems ++ [.voiceWrites, .completions, .showReset] ++ relayItems
  | .outputs => firstItems ++ [.writes]
  | .cell => firstItems ++ [.warmReset, .showReset]
  | .forward => firstItems ++ [.writes, .warmReset, .showReset, .cell]
  | .relayEnds => firstItems ++ [.showReset]
  | .relayRequests => firstItems ++ [.showReset] ++ earlierRelay .relayRequests
  | .relayPresses => firstItems ++ [.showReset] ++ earlierRelay .relayPresses
  | .relayAcks => firstItems ++ [.showReset] ++ earlierRelay .relayAcks
  | .relayStops => firstItems ++ [.showReset] ++ earlierRelay .relayStops
  | .relaySchedule => firstItems ++ [.showReset] ++ earlierRelay .relaySchedule
  | .relayWaits => firstItems ++ [.showReset] ++ earlierRelay .relayWaits
  | .relayDucks => firstItems ++ [.showReset, .writes] ++ earlierRelay .relayDucks
  | .relaySpeak => firstItems ++ [.showReset, .writes] ++ earlierRelay .relaySpeak
  | .relayLamps => firstItems ++ [.showReset, .writes] ++ earlierRelay .relayLamps
  | .execute => allBut [.execute, .meters, .inputMeters, .busMeters]
  | .meters | .inputMeters | .busMeters =>
    allBut [.warmReset, .cell, .forward, .execute, .meters, .inputMeters, .busMeters]

/-! ### Taking items -/

/-- Run an item if it is still due, and only once. -/
def State.runDue (s : State) (it : Item) : State := s.runOnce it (runItem it)

/-- Run the items that must come before an item. -/
def State.ready (s : State) (it : Item) : State :=
  (s.due.filter fun x => (needs it).contains x).foldl State.runDue s

/-- Take an item: the items that must come before it, then the item. -/
def State.takeItem (s : State) (it : Item) : State := if s.isDue it then (s.ready it).runDue it else s

/-- The meters of the frame, which may wait for its end. -/
def isMeter : Item → Bool
  | .meters | .inputMeters | .busMeters => true
  | _ => false

/-- Take what is left of the boundary's work but the meters of the frame. -/
def State.settle (s : State) : State := (s.due.filter fun x => !isMeter x).foldl State.runDue s

/-- End the frame at hand, if one is being carried: its meters, those still due, then its mix (R58). -/
def State.endFrame (s : State) : State :=
  if s.frameOpen then ((s.due.filter isMeter).foldl State.runDue s).closeFrame else s

/-! ### Boundaries -/

/-- The items of a LINK-TIMED boundary. -/
def linkItems : List Item := allBut [.lossEvent, .lossCapture, .lossPartial]
/-- The items of a LOCAL-TIMED boundary: no frame is read or forwarded (R169). -/
def localItems : List Item := allBut [.lossEvent, .lossCapture, .lossPartial, .linkEvents, .cell, .forward]
/-- The items of the boundary at which the link becomes LOST (R163, R170). -/
def lossItems : List Item := allBut [.linkEvents, .cell, .forward]

/-- Open a boundary after the frame before it has ended: the boundaries count on (R169), the local side brings its blocks and
pins (R188, R189), the show-stop report of the last pass stands (R69), the blocks whose posts come late, and those whose clip
posts do, are fixed (R184), and the work is due. -/
def State.openFrame (s : State) (env : Env) (clocks : Clocking) (items : List Item) : State :=
  { s.clearLossCuts.openPass with
    boundaries := s.boundaries + 1
    frameOpen := true
    due := items
    mix := { s.mix with stopStands := s.relay.stopOnAir }
    msg := { s.msg with late := env.late, frameLate := env.frameLate.filter fun b => b == .inputs || b == .mix }
    ports := s.ports.openBoundary env clocks }

/-- Take the work of an open boundary in the order asked for, and the rest of it, or leave the rest due. -/
def State.work (s : State) (env : Env) : State :=
  let taken := env.order.foldl State.takeItem s
  if env.rest then taken.settle else taken

/-- The end of the frame at hand: what is left of its boundary's work, then its meters and its mix (R58). -/
def State.finish (s : State) : State := s.settle.endFrame

/-- A LINK-TIMED boundary (R162). -/
def State.linkTimedBoundary (s : State) (f : Frame) (env : Env) : State :=
  ((s.finish.onLink (Link.frameBoundary f)).openFrame env .linkRate linkItems).work env

/-- A LOCAL-TIMED boundary (R169). -/
def State.localTimedBoundary (s : State) (env : Env) : State :=
  ((s.finish.onLink Link.localBoundary).openFrame env .localRate localItems).work env

/-- The boundary at which the link becomes LOST (R163). -/
def State.linkLossBoundary (s : State) (env : Env) : State :=
  ((s.finish.onLink Link.lossBoundary).openFrame env .localRate lossItems).work env

/-- A frame taken in full on a port (R159). -/
def State.takeFrame (s : State) (p : Port) (f : Frame) (env : Env) : State :=
  if s.link.upstream.isSome ∧ s.link.upstream ≠ some p then s.dropReverse p
  else if Config.hopLimit ≤ f.hop.toNat then s.dropHops
  else if s.link.state = .locked then s.linkTimedBoundary f env
  else s.acquire p f.passes

/-! ### Steps of a boundary taken one at a time -/

/-- A step inside a boundary: while its item is due, the work that must come before it is done, and when it then happens, its
effect; a step that does not happen changes nothing (log entry 3). -/
def State.stepIn (s : State) (it : Item) (happens : State → Bool) (effect : State → State) : State :=
  if s.isDue it && happens (s.ready it) then effect (s.ready it) else s

/-! ### Messages as commands -/

/-- A message for this node reaches it: requests are taken while the link is LOCKED and LINK-TIMED (R165, R170), at the node's
address, broadcast or a group (R172). -/
def State.reached (s : State) (o : Origin) : Bool := s.link.open && s.takes o

/-- A message whose result is settled at execution: the boundary's work is done, the message takes its place, and its owner
carries it out (R175). -/
def State.messageNow (s : State) (o : Origin) (r : Request) : State :=
  let s1 := s.settle
  if s1.reached o && !dropped o r then
    match s1.takePlace o (requestKind r) with
    | (none, s2) => s2
    | (some place, s2) => s2.handOver o place r
  else s1

/-- A message that its owner takes at a boundary: while the owner's item is due it is taken there and then, after those that
already wait there, and otherwise it takes its place and waits for the next boundary (R87, R124, R138, R140, R187). -/
def State.messageAt (s : State) (it : Item) (o : Origin) (r : Request) (take : Option Nat → State → State) : State :=
  let s1 := if s.isDue it then runItem it (s.ready it) else s.settle
  if s1.reached o then
    match s1.takePlace o (requestKind r) with
    | (none, s2) => s2
    | (some place, s2) => if s.isDue it then take place s2 else s2.handOver o place r
  else s1

end Sys2Proof.Machine
end

