-- ==== Sys2Proof/Machine/Events.lean ====
section
/-! DEFINITION. The commands that come from the pins, the link ports and the node's own timers: cold reset, frame arrivals, the
two timers, and the reset pin. -/

namespace Sys2Proof.Machine

open Sys2Proof

/-- What a command answers: the next state; a node held in reset takes nothing but a cold reset (R192). -/
abbrev Answer := Host.Outcome State Fault Refusal

/-- A command of a node that is not held in reset. -/
def State.awake (s : State) (effect : State → State) : Answer := .next (if s.ports.standsStill then s else effect s)

/-- COLD_RESET: every block takes its cold-reset values, and the address is read from the straps (R191, R192). -/
def execColdReset (straps : BitVec 6) (s : State) : Answer := .next { State.cold straps with pending := s.pending }

/-- FRAME_ARRIVAL (R159). -/
def execFrameArrival (port : Port) (frame : Frame) (env : Env) (s : State) : Answer :=
  s.awake fun s => s.takeFrame port frame env

/-- LOCAL_INTERVAL_EXPIRY: a LOCAL-TIMED boundary; the interval does not run in LINK-TIMED operation (R169). -/
def execLocalIntervalExpiry (env : Env) (s : State) : Answer :=
  s.awake fun s => if s.link.linkTimed then s else s.localTimedBoundary env

/-- LINK_LOST: the arrival timer reaches 3 ms in LOCKED (R163). -/
def execLinkLost (env : Env) (s : State) : Answer :=
  s.awake fun s => if s.link.state = .locked then s.linkLossBoundary env else s

/-- REACQUIRE_TIMEOUT: the arrival timer reaches 3 ms with the link not LOCKED (R164). -/
def execReacquireTimeout (s : State) : Answer := s.awake fun s => s.onLink Link.timeOut

/-- Every operation in flight is aborted: a capture, the fades and the follow, the calls, a partial message, a staged hold, and
every message not yet carried out (R192). -/
def State.abortAll (s : State) : State :=
  { s with
    frameOpen := false
    due := []
    msg := { s.msg with
      assembler := none, replies := [], holdOpen := false, holdAge := 0, staged := [], accepted := []
      talks := [], waiting := [], resets := [], completed := none, late := [], frameLate := []
      coming := [] }
    cue := { s.cue with follow := none, fades := [] }
    clip := { s.clip with
      capture := none
      clips := s.clip.clips.filter Clip.stored
      voices := table fun v => s.clip.voices[v].toIdle }
    relay := { s.relay with
      calls := [], requests := [], reports := [], stopOnAir := false
      zones := table fun z => { s.relay.zones[z] with call := none, tail := none } } }

/-- The pins while the node stands still: ports silent, clocks stopped, output data 0, lamps dark (R188, R190, R192). -/
def State.quiet (s : State) : State :=
  { s with
    link := { s.link with sent := none }
    relay := { s.relay with zones := table fun z => { s.relay.zones[z] with lamp := false } }
    ports := { s.ports with localOut := Vector.replicate 24 silence, clocks := .stopped, standsStill := true } }

/-- RESET_PIN_ASSERTED: the pin has been held for 10 µs and the node stands still (R192). -/
def execResetPinAsserted (s : State) : Answer := .next s.abortAll.quiet

end Sys2Proof.Machine
end

