-- ==== Sys2Proof/Machine/Steps.lean ====
section
/-! DEFINITION. The commands that are steps inside a boundary, each on the item of the boundary's work it belongs to. -/

namespace Sys2Proof.Machine

open Sys2Proof

/-- LEVEL_TAKEN: a line's run has reached 20 (R189). -/
def execLevelTaken (line : LineId) (s : State) : Answer :=
  s.awake fun s => s.stepIn .levels (fun p => (p.ports.line line).ready) fun p => p.onPorts fun q => q.takeLine line

/-- PRIMARY_LOSS (R28). -/
def execPrimaryLoss (i : Fin 64) (s : State) : Answer :=
  s.awake fun s => s.stepIn .transitions (fun p => (p.inputs[i].primaryLoss p.sourceValid i).isSome) fun p =>
    p.takeTransition i (p.inputs[i].primaryLoss p.sourceValid i)

/-- SPARE_LOSS (R29 cases 1 and 2). -/
def execSpareLoss (i : Fin 64) (s : State) : Answer :=
  s.awake fun s => s.stepIn .transitions (fun p => (p.inputs[i].spareLoss p.sourceValid i).isSome) fun p =>
    p.takeTransition i (p.inputs[i].spareLoss p.sourceValid i)

/-- AUTO_RETURN (R29 case 3). -/
def execAutoReturn (i : Fin 64) (s : State) : Answer :=
  s.awake fun s => s.stepIn .transitions (fun p => (p.inputs[i].autoReturn p.sourceValid i).isSome) fun p =>
    p.takeTransition i (p.inputs[i].autoReturn p.sourceValid i)

/-- RESTORE (R30). -/
def execRestore (i : Fin 64) (s : State) : Answer :=
  s.awake fun s => s.stepIn .transitions (fun p => (p.inputs[i].restore p.sourceValid i).isSome) fun p =>
    p.takeTransition i (p.inputs[i].restore p.sourceValid i)

/-- FADE_COMPLETE (R105). -/
def execFadeComplete (t : Target) (s : State) : Answer :=
  s.awake fun s => s.stepIn .completions (fun p => (p.fadeOf t).any Fade.done) fun p => p.completeTarget t

/-- FOLLOW_TIMING_START (R99). -/
def execFollowTimingStart (s : State) : Answer :=
  s.awake fun s => s.stepIn .followTiming (fun p => p.cue.follow.any fun f => !f.timing && f.items.isEmpty)
    State.startTiming

/-- FOLLOW_EXPIRY: the step of the timer that reaches 0 (R98). -/
def execFollowExpiry (s : State) : Answer :=
  s.awake fun s => s.stepIn .follow
    (fun p => !p.cue.held && p.cue.follow.any fun f => f.timing && f.since < p.boundaries && f.remaining ≤ 1)
    fun p => p.runDue .follow

/-- CUT_OUT_END: the cut-out has run its four frames, or its clip has run out sooner (R121). -/
def execCutOutEnd (v : Fin 8) (s : State) : Answer :=
  s.awake fun s => s.stepIn .ends (fun p => p.clip.voices[v].ending == .cutOut && p.clip.voices[v].over) fun p =>
    p.endIfOver v

/-- PLAYBACK_END: the clip has run out, with no cut under way (R119). -/
def execPlaybackEnd (v : Fin 8) (s : State) : Answer :=
  s.awake fun s => s.stepIn .ends
    (fun p => p.clip.voices[v].ending != .cutOut && p.clip.voices[v].ending != .callCut && p.clip.voices[v].over)
    fun p => p.endIfOver v

/-- CALL_STOP_END: the one-frame cut of a call voice is over (R126). -/
def execCallStopEnd (v : Fin 8) (s : State) : Answer :=
  s.awake fun s => s.stepIn .ends (fun p => p.clip.voices[v].ending == .callCut && p.clip.voices[v].over) fun p =>
    p.endIfOver v

/-- RESERVE_CHANGE (R125). -/
def execReserveChange (s : State) : Answer :=
  s.awake fun s => s.stepIn .reserve (fun p => p.clip.reserve != p.msg.node.reserve && p.reserveFree) fun p =>
    p.runDue .reserve

/-- CAPTURE_DONE (R115 step 1). -/
def execCaptureDone (s : State) : Answer :=
  s.awake fun s => s.stepIn .capture (fun p => p.clip.capture.any Capture.full) fun p => p.runDue .capture

/-- ONAIR_LIMIT: the live call's on-air counter reaches its limit at step 1 of the pass (R139). -/
def execOnairLimit (id : U16) (s : State) : Answer :=
  s.awake fun s => s.stepIn .relayEnds
    (fun p => (p.callOf id.toNat).any fun c =>
      c.isLive && c.isOnAir && c.since < p.boundaries && c.maxOnAir ≤ c.onAirCount + 1)
    fun p => p.runDue .relayEnds

/-- ACK_TIMEOUT: the call's ack counter reaches its timeout at step 4 of the pass (R149). -/
def execAckTimeout (id : U16) (s : State) : Answer :=
  s.awake fun s => s.stepIn .relayAcks
    (fun p => (p.callOf id.toNat).any fun c =>
      c.state == .awaitAck && c.since < p.boundaries && c.ackTimeout ≤ c.ackCount + 1)
    fun p => p.runDue .relayAcks

/-- EXPIRED: the call's wait counter reaches its limit at step 7 of the pass (R144). -/
def execExpired (id : U16) (s : State) : Answer :=
  s.awake fun s => s.stepIn .relayWaits
    (fun p => (p.callOf id.toNat).any fun c =>
      c.state == .waiting && c.priority != 3 && p.takesPart c && c.waitLimit ≤ c.waitCount + 1)
    fun p => p.runDue .relayWaits

/-- SHOW_STOP_ON_AIR: step 5 of the pass with a priority-3 call WAITING (R150). -/
def execShowStopOnAir (s : State) : Answer :=
  s.awake fun s => s.stepIn .relayStops
    (fun p => p.relay.calls.any fun c => c.priority == 3 && c.state == .waiting && p.takesPart c)
    fun p => p.runDue .relayStops

/-- CALL_ON_AIR: the scheduling step that puts this call on air, with the calls that come before it in the order (R142). -/
def execCallOnAir (id : U16) (s : State) : Answer :=
  s.awake fun s => s.stepIn .relaySchedule
    (fun p => (p.callOf id.toNat).any (fun c => c.state == .waiting) &&
      ((p.runDue .relaySchedule).callOf id.toNat).any Call.isOnAir)
    fun p => p.runDue .relaySchedule

/-- CALL_SPEAKING: the call's ducks are at depth (R145). -/
def execCallSpeaking (id : U16) (s : State) : Answer :=
  s.awake fun s => s.stepIn .relaySpeak
    (fun p => (p.callOf id.toNat).any fun c => c.state == .onAir false && c.since < p.boundaries && p.atDepth c)
    fun p => p.speakCall id.toNat

/-- HOLD_TIMEOUT (R183). -/
def execHoldTimeout (s : State) : Answer :=
  s.awake fun s => s.stepIn .hold (fun p => p.msg.holdOpen && p.msg.node.holdLimit ≤ p.msg.holdAge + 1) fun p =>
    p.runDue .hold

end Sys2Proof.Machine
end

