-- ==== Sys2Proof/Machine/Requests.lean ====
section
/-! DEFINITION. The messages as commands: one definition for each message row, over the message controller's handling of a
message that completes (R175, R176). -/

namespace Sys2Proof.Machine

open Sys2Proof

/-- A GO, STANDBY, HALT, RESUME, VOICE PLAY or VOICE STOP: its owner takes it at the boundary (R87, R124). -/
def State.messageAtBoundary (s : State) (o : Origin) (r : Request) : State :=
  s.messageAt .requests o r fun place s => s.takeWaiting { origin := o, place := place, request := r }

/-- A CALL END or CALL CANCEL: step 2 of the relay pass takes it (R140, R141). -/
def State.messageAtPass (s : State) (o : Origin) (r : Request) (cancel : Bool) (id : U16) : State :=
  s.messageAt .relayRequests o r fun place s => s.takeRelayRequest { cancel := cancel, id := id.toNat, place := place }

/-- A RESET with mode WARM, taken at the boundary (R187). -/
def State.messageAtWarm (s : State) (o : Origin) : State :=
  s.messageAt .warmReset o (.reset 0) fun place s => s.takeWarmReset { origin := o, place := place, request := .reset 0 }

/-- A RESET with mode SHOW, taken at the boundary (R187). -/
def State.messageAtShow (s : State) (o : Origin) : State :=
  s.messageAt .showReset o (.reset 1) fun place s => s.takeShowReset { origin := o, place := place, request := .reset 1 }

/-- TABLE WRITE of INPUT (R22, R178). -/
def execTableWriteInput (origin : Origin) (first : U8) (entries : List RawInput) (s : State) : Answer :=
  s.awake fun s => s.messageNow origin (.writeInput first entries)

/-- TABLE WRITE of CROSSPOINT (R46, R178). -/
def execTableWriteCrosspoint (origin : Origin) (window : RawWindow) (codes : List U16) (s : State) : Answer :=
  s.awake fun s => s.messageNow origin (.writeCrosspoint window codes)

/-- TABLE WRITE of BUS (R50, R178). -/
def execTableWriteBus (origin : Origin) (first : U8) (entries : List RawBus) (s : State) : Answer :=
  s.awake fun s => s.messageNow origin (.writeBus first entries)

/-- TABLE WRITE of OUTPUT (R55, R178). -/
def execTableWriteOutput (origin : Origin) (first : U8) (entries : List RawOutput) (s : State) : Answer :=
  s.awake fun s => s.messageNow origin (.writeOutput first entries)

/-- TABLE WRITE of ZONE (R131, R178). -/
def execTableWriteZone (origin : Origin) (first : U8) (entries : List RawZone) (s : State) : Answer :=
  s.awake fun s => s.messageNow origin (.writeZone first entries)

/-- TABLE WRITE of TALK (R63, R178). -/
def execTableWriteTalk (origin : Origin) (first : U8) (entries : List RawTalk) (s : State) : Answer :=
  s.awake fun s => s.messageNow origin (.writeTalk first entries)

/-- TABLE WRITE of VOICE (R123, R178). -/
def execTableWriteVoice (origin : Origin) (first : U8) (codes : List U16) (s : State) : Answer :=
  s.awake fun s => s.messageNow origin (.writeVoice first codes)

/-- TABLE WRITE of NODE (R178, R180). -/
def execTableWriteNode (origin : Origin) (first : U8) (entries : List RawNode) (s : State) : Answer :=
  s.awake fun s => s.messageNow origin (.writeNode first entries)

/-- TABLE READ (R179). -/
def execTableRead (origin : Origin) (table : U8) (place : ReadPlace) (s : State) : Answer :=
  s.awake fun s => s.messageNow origin (.read table place)

/-- TABLE READ of METER (R181). -/
def execMeterRead (origin : Origin) (first count : U8) (s : State) : Answer :=
  s.awake fun s => s.messageNow origin (.readMeter first count)

/-- HOLD with mode ON (R182). -/
def execHoldOn (origin : Origin) (s : State) : Answer :=
  s.awake fun s => s.messageNow origin (.hold 0)

/-- HOLD with mode APPLY (R183). -/
def execHoldApply (origin : Origin) (s : State) : Answer :=
  s.awake fun s => s.messageNow origin (.hold 1)

/-- HOLD with mode DISCARD (R183). -/
def execHoldDiscard (origin : Origin) (s : State) : Answer :=
  s.awake fun s => s.messageNow origin (.hold 2)

/-- CUE STORE (R82, R83). -/
def execCueStore (origin : Origin) (cue : RawCue) (s : State) : Answer :=
  s.awake fun s => s.messageNow origin (.cueStore cue)

/-- CUE REMOVE (R84). -/
def execCueRemove (origin : Origin) (number : U32) (s : State) : Answer :=
  s.awake fun s => s.messageNow origin (.cueRemove number)

/-- CUE READ (R85). -/
def execCueRead (origin : Origin) (number : U32) (mode : U8) (s : State) : Answer :=
  s.awake fun s => s.messageNow origin (.cueRead number mode)

/-- GO (R87 to R90). -/
def execGo (origin : Origin) (number : U32) (s : State) : Answer :=
  s.awake fun s => s.messageAtBoundary origin (.go number)

/-- STANDBY (R91). -/
def execStandby (origin : Origin) (number : U32) (s : State) : Answer :=
  s.awake fun s => s.messageAtBoundary origin (.standby number)

/-- HALT (R107). -/
def execHalt (origin : Origin) (s : State) : Answer :=
  s.awake fun s => s.messageAtBoundary origin .halt

/-- RESUME (R109). -/
def execResume (origin : Origin) (s : State) : Answer :=
  s.awake fun s => s.messageAtBoundary origin .resume

/-- CALL PLACE (R136). -/
def execCallPlace (origin : Origin) (call : RawCall) (s : State) : Answer :=
  s.awake fun s => s.messageNow origin (.callPlace call)

/-- CALL END (R140). -/
def execCallEnd (origin : Origin) (id : U16) (s : State) : Answer :=
  s.awake fun s => s.messageAtPass origin (.callEnd id) false id

/-- CALL CANCEL (R141). -/
def execCallCancel (origin : Origin) (id : U16) (s : State) : Answer :=
  s.awake fun s => s.messageAtPass origin (.callCancel id) true id

/-- TALK (R64, R65). -/
def execTalk (origin : Origin) (group setting : U8) (s : State) : Answer :=
  s.awake fun s => s.messageNow origin (.talk group setting)

/-- INPUT SELECT (R36, R37). -/
def execInputSelect (origin : Origin) (input choice : U8) (s : State) : Answer :=
  s.awake fun s => s.messageNow origin (.inputSelect input choice)

/-- CAPTURE (R114). -/
def execCapture (origin : Origin) (clip : U8) (source : RawSource) (length : U32) (s : State) : Answer :=
  s.awake fun s => s.messageNow origin (.capture clip source length)

/-- CAPTURE ABORT (R117). -/
def execCaptureAbort (origin : Origin) (clip : U8) (s : State) : Answer :=
  s.awake fun s => s.messageNow origin (.captureAbort clip)

/-- CLIP REMOVE (R118). -/
def execClipRemove (origin : Origin) (clip : U8) (s : State) : Answer :=
  s.awake fun s => s.messageNow origin (.clipRemove clip)

/-- VOICE PLAY (R124). -/
def execVoicePlay (origin : Origin) (voice clip : U8) (gain : U16) (loop : U8) (s : State) : Answer :=
  s.awake fun s => s.messageAtBoundary origin (.voicePlay voice clip gain loop)

/-- VOICE STOP (R124). -/
def execVoiceStop (origin : Origin) (voice : U8) (frames : U32) (s : State) : Answer :=
  s.awake fun s => s.messageAtBoundary origin (.voiceStop voice frames)

/-- STATUS READ (R186). -/
def execStatusRead (origin : Origin) (part first count : U8) (s : State) : Answer :=
  s.awake fun s => s.messageNow origin (.status part first count)

/-- EVENT FETCH (R185). -/
def execEventFetch (origin : Origin) (max : U8) (s : State) : Answer :=
  s.awake fun s => s.messageNow origin (.eventFetch max)

/-- FLAGS CLEAR (R185). -/
def execFlagsClear (origin : Origin) (flags : U64) (s : State) : Answer :=
  s.awake fun s => s.messageNow origin (.flagsClear flags)

/-- RESET with mode WARM (R187). -/
def execResetWarm (origin : Origin) (s : State) : Answer :=
  s.awake fun s => s.messageAtWarm origin

/-- RESET with mode SHOW (R110, R130, R155, R187). -/
def execShowReset (origin : Origin) (s : State) : Answer :=
  s.awake fun s => s.messageAtShow origin

end Sys2Proof.Machine
end

