-- ==== Sys2Proof/Machine/Dispatch.lean ====
section
/-! DEFINITION. The dispatch: one arm per command. -/

namespace Sys2Proof.Machine

open Sys2Proof

def exec (i : Instr) (s : State) : Host.Outcome State Fault Refusal :=
  match i with
  | .coldReset straps => Sys2Proof.Machine.execColdReset straps s
  | .frameArrival port frame env => Sys2Proof.Machine.execFrameArrival port frame env s
  | .localIntervalExpiry env => Sys2Proof.Machine.execLocalIntervalExpiry env s
  | .linkLost env => Sys2Proof.Machine.execLinkLost env s
  | .reacquireTimeout => Sys2Proof.Machine.execReacquireTimeout s
  | .levelTaken line => Sys2Proof.Machine.execLevelTaken line s
  | .primaryLoss input => Sys2Proof.Machine.execPrimaryLoss input s
  | .spareLoss input => Sys2Proof.Machine.execSpareLoss input s
  | .autoReturn input => Sys2Proof.Machine.execAutoReturn input s
  | .restore input => Sys2Proof.Machine.execRestore input s
  | .fadeComplete target => Sys2Proof.Machine.execFadeComplete target s
  | .followTimingStart => Sys2Proof.Machine.execFollowTimingStart s
  | .followExpiry => Sys2Proof.Machine.execFollowExpiry s
  | .cutOutEnd voice => Sys2Proof.Machine.execCutOutEnd voice s
  | .playbackEnd voice => Sys2Proof.Machine.execPlaybackEnd voice s
  | .callStopEnd voice => Sys2Proof.Machine.execCallStopEnd voice s
  | .reserveChange => Sys2Proof.Machine.execReserveChange s
  | .captureDone => Sys2Proof.Machine.execCaptureDone s
  | .onairLimit id => Sys2Proof.Machine.execOnairLimit id s
  | .ackTimeout id => Sys2Proof.Machine.execAckTimeout id s
  | .expired id => Sys2Proof.Machine.execExpired id s
  | .showStopOnAir => Sys2Proof.Machine.execShowStopOnAir s
  | .callOnAir id => Sys2Proof.Machine.execCallOnAir id s
  | .callSpeaking id => Sys2Proof.Machine.execCallSpeaking id s
  | .holdTimeout => Sys2Proof.Machine.execHoldTimeout s
  | .tableWriteInput origin first entries => Sys2Proof.Machine.execTableWriteInput origin first entries s
  | .tableWriteCrosspoint origin window codes => Sys2Proof.Machine.execTableWriteCrosspoint origin window codes s
  | .tableWriteBus origin first entries => Sys2Proof.Machine.execTableWriteBus origin first entries s
  | .tableWriteOutput origin first entries => Sys2Proof.Machine.execTableWriteOutput origin first entries s
  | .tableWriteZone origin first entries => Sys2Proof.Machine.execTableWriteZone origin first entries s
  | .tableWriteTalk origin first entries => Sys2Proof.Machine.execTableWriteTalk origin first entries s
  | .tableWriteVoice origin first codes => Sys2Proof.Machine.execTableWriteVoice origin first codes s
  | .tableWriteNode origin first entries => Sys2Proof.Machine.execTableWriteNode origin first entries s
  | .tableRead origin table place => Sys2Proof.Machine.execTableRead origin table place s
  | .meterRead origin first count => Sys2Proof.Machine.execMeterRead origin first count s
  | .holdOn origin => Sys2Proof.Machine.execHoldOn origin s
  | .holdApply origin => Sys2Proof.Machine.execHoldApply origin s
  | .holdDiscard origin => Sys2Proof.Machine.execHoldDiscard origin s
  | .cueStore origin cue => Sys2Proof.Machine.execCueStore origin cue s
  | .cueRemove origin number => Sys2Proof.Machine.execCueRemove origin number s
  | .cueRead origin number mode => Sys2Proof.Machine.execCueRead origin number mode s
  | .go origin number => Sys2Proof.Machine.execGo origin number s
  | .standby origin number => Sys2Proof.Machine.execStandby origin number s
  | .halt origin => Sys2Proof.Machine.execHalt origin s
  | .resume origin => Sys2Proof.Machine.execResume origin s
  | .callPlace origin call => Sys2Proof.Machine.execCallPlace origin call s
  | .callEnd origin id => Sys2Proof.Machine.execCallEnd origin id s
  | .callCancel origin id => Sys2Proof.Machine.execCallCancel origin id s
  | .talk origin group setting => Sys2Proof.Machine.execTalk origin group setting s
  | .inputSelect origin input choice => Sys2Proof.Machine.execInputSelect origin input choice s
  | .capture origin clip source length => Sys2Proof.Machine.execCapture origin clip source length s
  | .captureAbort origin clip => Sys2Proof.Machine.execCaptureAbort origin clip s
  | .clipRemove origin clip => Sys2Proof.Machine.execClipRemove origin clip s
  | .voicePlay origin voice clip gain loop => Sys2Proof.Machine.execVoicePlay origin voice clip gain loop s
  | .voiceStop origin voice frames => Sys2Proof.Machine.execVoiceStop origin voice frames s
  | .statusRead origin part first count => Sys2Proof.Machine.execStatusRead origin part first count s
  | .eventFetch origin max => Sys2Proof.Machine.execEventFetch origin max s
  | .flagsClear origin flags => Sys2Proof.Machine.execFlagsClear origin flags s
  | .resetWarm origin => Sys2Proof.Machine.execResetWarm origin s
  | .showReset origin => Sys2Proof.Machine.execShowReset origin s
  | .resetPinAsserted => Sys2Proof.Machine.execResetPinAsserted s

end Sys2Proof.Machine
end

