-- ==== Sys2Proof/WellFormed.lean ====
section
/-! DEFINITION. Which commands are well formed: those the wire, the pins and the timers can carry. The meanings do not rest
on it. -/

namespace Sys2Proof

open Machine

/-- The message a command carries, with its origin; none for a command that is no message. -/
def Instr.message : Instr → Option (Origin × Request)
  | .coldReset _ | .frameArrival _ _ _ | .localIntervalExpiry _ | .linkLost _ | .reacquireTimeout | .levelTaken _
  | .primaryLoss _ | .spareLoss _ | .autoReturn _ | .restore _ | .fadeComplete _ | .followTimingStart | .followExpiry
  | .cutOutEnd _ | .playbackEnd _ | .callStopEnd _ | .reserveChange | .captureDone | .onairLimit _ | .ackTimeout _
  | .expired _ | .showStopOnAir | .callOnAir _ | .callSpeaking _ | .holdTimeout | .resetPinAsserted => none
  | .tableWriteInput o first es => some (o, .writeInput first es)
  | .tableWriteCrosspoint o w codes => some (o, .writeCrosspoint w codes)
  | .tableWriteBus o first es => some (o, .writeBus first es)
  | .tableWriteOutput o first es => some (o, .writeOutput first es)
  | .tableWriteZone o first es => some (o, .writeZone first es)
  | .tableWriteTalk o first es => some (o, .writeTalk first es)
  | .tableWriteVoice o first codes => some (o, .writeVoice first codes)
  | .tableWriteNode o first es => some (o, .writeNode first es)
  | .tableRead o t place => some (o, .read t place)
  | .meterRead o first count => some (o, .readMeter first count)
  | .holdOn o => some (o, .hold 0)
  | .holdApply o => some (o, .hold 1)
  | .holdDiscard o => some (o, .hold 2)
  | .cueStore o cue => some (o, .cueStore cue)
  | .cueRemove o n => some (o, .cueRemove n)
  | .cueRead o n mode => some (o, .cueRead n mode)
  | .go o n => some (o, .go n)
  | .standby o n => some (o, .standby n)
  | .halt o => some (o, .halt)
  | .resume o => some (o, .resume)
  | .callPlace o call => some (o, .callPlace call)
  | .callEnd o id => some (o, .callEnd id)
  | .callCancel o id => some (o, .callCancel id)
  | .talk o group setting => some (o, .talk group setting)
  | .inputSelect o input choice => some (o, .inputSelect input choice)
  | .capture o clip source length => some (o, .capture clip source length)
  | .captureAbort o clip => some (o, .captureAbort clip)
  | .clipRemove o clip => some (o, .clipRemove clip)
  | .voicePlay o voice clip gain loop => some (o, .voicePlay voice clip gain loop)
  | .voiceStop o voice frames => some (o, .voiceStop voice frames)
  | .statusRead o part first count => some (o, .status part first count)
  | .eventFetch o max => some (o, .eventFetch max)
  | .flagsClear o flags => some (o, .flagsClear flags)
  | .resetWarm o => some (o, .reset 0)
  | .showReset o => some (o, .reset 1)

/-- The origin is one a cell can have: a group address is 64 to 95 (Table 0-5). -/
def Origin.wellFormed : Origin → Bool
  | .group a => decide (64 ≤ a.toNat ∧ a.toNat ≤ 95)
  | .addressed _ | .broadcast => true

/-- The action has one of the five kinds (Table 5-2). -/
def RawAction.known : RawAction → Bool
  | .unknown _ => false
  | .move _ _ _ _ | .play _ _ _ _ | .stop _ _ | .route _ _ _ | .call _ _ _ _ _ => true

/-- A cue's action count fits its byte, and every action is of a known kind: nothing can be read after one that is not. -/
def RawCue.wellFormed (c : RawCue) : Bool := decide (c.actions.length < 256) && c.actions.all RawAction.known

/-- The place of a TABLE READ is of its table's shape: a window for CROSSPOINT (2), a range for the others but METER (9),
which has a row of its own (R179, R181). -/
def placeFits (table : U8) : ReadPlace → Bool
  | .window _ => table == 2
  | .range _ _ => table != 2 && table != 9

/-- The fields of a request have the shape its body can carry. -/
def Request.shaped : Request → Bool
  | .cueStore c => c.wellFormed
  | .read t place => placeFits t place
  | _ => true

/-- The body fits in ten cells (R173). -/
def bodyFits (r : Request) : Bool := decide ((requestBody r).length ≤ Config.maxBody)

/-- A request is well formed: its fields have their shape and its body fits. -/
def Request.wellFormed (r : Request) : Bool := r.shaped && bodyFits r

/-- No item is asked for twice. -/
def itemsDistinct : List Item → Bool
  | [] => true
  | x :: rest => !rest.contains x && itemsDistinct rest

/-- The order of a boundary names no item twice. -/
def Env.wellFormed (e : Env) : Bool := itemsDistinct e.order

/-- A call id is 1 to 65,535 (Table 7-3). -/
def callIdFits (id : U16) : Bool := id != 0

/-- What a command that is no message must keep to. -/
def Instr.fieldsFit : Instr → Bool
  | .frameArrival _ _ env => env.wellFormed
  | .localIntervalExpiry env => env.wellFormed
  | .linkLost env => env.wellFormed
  | .onairLimit id => callIdFits id
  | .ackTimeout id => callIdFits id
  | .expired id => callIdFits id
  | .callOnAir id => callIdFits id
  | .callSpeaking id => callIdFits id
  | _ => true

/-- A command is well formed. -/
def Instr.wellFormed (i : Instr) : Bool :=
  i.fieldsFit && i.message.all fun m => m.1.wellFormed && m.2.wellFormed

end Sys2Proof
end

