-- ==== Sys2Proof/Safety.lean ====
section
/-! DEFINITION. The terms in which statements are made: a node between boundaries, a message that is heard, what a reply
leaves, a step that is next in its boundary, and the laws of the manual as predicates of a state. -/

namespace Sys2Proof.Machine

open Sys2Proof

/-! ### Situations -/

/-- The node runs, and nothing of a boundary's work is left but the meters of the frame at hand. -/
def State.between (s : State) : Prop := s.ports.standsStill = false ∧ ∀ it ∈ s.due, isMeter it = true

/-- The places of the replies in the queue are older than the place the next message takes. -/
def State.placesFresh (s : State) : Prop := ∀ r ∈ s.msg.replies, r.place < s.msg.nextPlace

/-- A message of this origin reaches the node, its link LOCKED and LINK-TIMED, and finds a place (R170, R172, R176). -/
def State.hears (s : State) (o : Origin) : Prop :=
  s.reached o = true ∧ (∀ tag, o = .addressed tag → s.msg.replies.length < Config.maxReplies) ∧ s.placesFresh

/-- The message controller after a message has been answered at once: an addressed message leaves its complete reply at the
tail of the queue, another leaves none (R176, R177). -/
def Msg.replied (m : Msg) (boundary : Nat) (o : Origin) (r : Result) : Msg :=
  match o with
  | .addressed tag =>
    { m with
      nextPlace := m.nextPlace + 1
      replies := m.replies ++ [{ place := m.nextPlace, tag := tag, body := some r.bytes, completedAt := boundary
                                 cellsSent := 0 }] }
  | _ => m

/-- The message controller after an addressed message has taken a place that waits for its owner (R176). -/
def Msg.placed (m : Msg) (o : Origin) : Msg :=
  match o with
  | .addressed tag =>
    { m with
      nextPlace := m.nextPlace + 1
      replies := m.replies ++ [{ place := m.nextPlace, tag := tag, body := none, completedAt := 0, cellsSent := 0 }] }
  | _ => m

/-- The place a message takes: none for a group or broadcast message. -/
def Msg.placeOf (m : Msg) (o : Origin) : Option Nat :=
  match o with
  | .addressed _ => some m.nextPlace
  | _ => none

/-- The state after a message has been answered at once. -/
def State.replied (s : State) (o : Origin) (r : Result) : State :=
  { s with msg := s.msg.replied s.boundaries o r }

/-- The node runs, the item is due, and nothing that must come before it is. -/
def State.atItem (s : State) (it : Item) : Prop :=
  s.ports.standsStill = false ∧ it ∈ s.due ∧ ∀ x ∈ s.due, x ∉ needs it

/-- The state with an item no longer due. -/
def State.without (s : State) (it : Item) : State := s.onDue fun d => d.filter fun x => x != it

/-- The end of the playback of a voice: with nothing pending it is IDLE with its gain code and its last levels as they were, and a
pending start begins at position 0, in PAUSED for a cue voice under HELD (R119, R121, R127). -/
def State.endedVoice (s : State) (v : Fin 8) : Voice :=
  let r := s.clip.voices[v]
  match r.pending with
  | none =>
    { state := .idle, playback := none, position := 0, ending := .none, pending := none, gain := r.gain
      gainEnd := r.gainEnd, factorEnd := r.factorEnd, cutFrom := Config.unity, cutElapsed := 0, ranOut := false }
  | some q =>
    let paused := s.cue.held && decide (v.val < 8 - s.clip.reserve)
    { state := if paused then .paused else .playing, playback := some q.playback, position := 0, ending := .none
      pending := none, gain := q.gain, gainEnd := r.gainEnd, factorEnd := if paused then 0 else Config.unity, cutFrom := Config.unity
      cutElapsed := 0, ranOut := false }

/-- From one state to the next the pending follow loses the open items that close, and nothing else of it changes (R99). -/
def State.itemsClosed (s t : State) (closes : Follow → FollowItem → Bool) : Prop :=
  t.cue.follow = s.cue.follow.map fun f => { f with items := f.items.filter fun x => !closes f x }

/-- The playback was started by a cue of the firing with this serial. -/
def Playback.firedBy (p : Playback) (serial : Nat) : Bool :=
  p.serial == serial && match p.owner with
    | .cue _ => true
    | _ => false

/-- The items of a follow that the end of the playback of voice v closes: the fade on its gain, whose record goes as a pending start
begins or a STOP fade ends, and the voice itself, when its playback was of the follow's firing and the pending start that begins does
not count there (R99, R121, R122). -/
def Voice.endCloses (r : Voice) (v : Fin 8) (f : Follow) (x : FollowItem) : Bool :=
  (x == .fade (.voiceGain v) && (r.pending.isSome || r.ending == .stopFade))
    || (x == .voice v && r.playback.any (·.firedBy f.serial) && !r.pending.any (·.playback.counts f.serial))

/-- From one state to the next the playback of one voice has ended, and nothing but that voice, its fade, the open items of the
follow and the reports to the relay controller has changed; the end of a call's playback is reported with its cause (R99, R119,
R126). -/
def State.voiceEnded (s t : State) (v : Fin 8) (cause : EndCause) : Prop :=
  t.clip.voices[v] = s.endedVoice v ∧ (∀ u : Fin 8, u ≠ v → t.clip.voices[u] = s.clip.voices[u])
    ∧ s.itemsClosed t (s.clip.voices[v].endCloses v)
    ∧ (∀ u, u ≠ .voiceGain v → t.fadeOf u = s.fadeOf u)
    ∧ t.cue.cues = s.cue.cues ∧ t.cue.standby = s.cue.standby ∧ t.cue.held = s.cue.held
    ∧ t.cue.lastFiring = s.cue.lastFiring ∧ t.cue.lastCue = s.cue.lastCue
    ∧ (∀ p id, s.clip.voices[v].playback = some p → p.owner = .call id →
        t.relay.reports = s.relay.reports ++ [{ call := id, cause := cause }])
    ∧ t.clip.clips = s.clip.clips ∧ t.clip.capture = s.clip.capture ∧ t.relay.calls = s.relay.calls
    ∧ t.relay.zones = s.relay.zones ∧ t.inputs = s.inputs ∧ t.mix = s.mix ∧ t.msg = s.msg ∧ t.link = s.link
    ∧ t.ports = s.ports ∧ t.due = s.due

/-- In the next state a post of a kind has reached the message controller, which has its condition SET, or, when the block that
posts it posts late at this boundary, is on its way (R184). -/
def State.flagged (s t : State) (k : EventKind) : Prop :=
  (s.msg.holdsBack k = false → t.msg.conditions.getLsbD k.value = true)
    ∧ (s.msg.holdsBack k = true → ∃ e ∈ t.msg.coming, e.post.kind = k)

/-- An event of this node's at its present boundary: its condition is SET, and it is in the queue of the next state when its kind
is enabled or always reported and the queue had room for a number of records; or it is on its way (R184). -/
def State.reported (s t : State) (room : Nat) (p : Post) : Prop :=
  s.flagged t p.kind
    ∧ (s.msg.holdsBack p.kind = false → s.msg.reports p.kind = true → s.msg.events.length + room ≤ Config.maxEvents →
        { stamp := s.link.counter, post := p } ∈ t.msg.events)
    ∧ (s.msg.holdsBack p.kind = true → { stamp := s.link.counter, post := p } ∈ t.msg.coming)

/-- From one state to the next a cue has been fired (R93): its actions are performed in order on a state without a follow, the
last firing and cue are this one, the standby is the next cue above, CUE_FIRED is posted with the cause (GO_MESSAGE 0, GO_GROUP 1,
GO_BROADCAST 2, GO_LINE 3, FOLLOW 4) and the number of actions skipped, and the follow is the cue's: none, a timer that runs at once,
or one that waits for the items that this firing has left open (R98, R99). Before CUE_FIRED each action posts one event at most. -/
def State.fired (s t : State) (c : Cue) (cause : U8) : Prop :=
  let serial := s.cue.firings + 1
  let done := State.performAll c.number serial 1 c.actions
    (s.onCue fun e => { e with follow := none, firings := serial })
  let d := done.1
  t.cue.fades = d.cue.fades ∧ t.clip = d.clip ∧ t.inputs = d.inputs ∧ t.mix = d.mix ∧ t.relay = d.relay
    ∧ t.cue.cues = s.cue.cues ∧ t.cue.held = s.cue.held ∧ t.cue.firings = serial
    ∧ t.cue.lastCue = some c.number ∧ t.cue.lastFiring = some s.boundaries
    ∧ t.cue.standby = (s.cue.cues.find? fun e => decide (c.number < e.number)).map Cue.number
    ∧ (c.follow = .none → t.cue.follow = none)
    ∧ (c.follow = .afterWait → t.cue.follow = some
        { cue := c.number, kind := .afterWait, timing := true, items := [], wait := c.wait, remaining := c.wait
          since := s.boundaries, serial := serial })
    ∧ (c.follow = .afterComplete → ∃ items, t.cue.follow = some
        { cue := c.number, kind := .afterComplete, timing := items.isEmpty, items := items, wait := c.wait
          remaining := c.wait, since := s.boundaries, serial := serial }
        ∧ (∀ u, FollowItem.fade u ∈ items ↔ ∃ f ∈ t.cue.fades, f.target = u ∧ f.serial = serial)
        ∧ ∀ v : Fin 8, FollowItem.voice v ∈ items ↔ t.clip.voices[v].counts serial = true)
    ∧ s.reported t (c.actions.length + 1)
        { kind := .cueFired, subject := .cue c.number, detail := [cause] ++ byte done.2 }
    ∧ t.link = s.link ∧ t.due = s.due ∧ t.boundaries = s.boundaries

/-- A call record is no longer in the queue. -/
def State.callGone (s : State) (id : Nat) : Prop := ∀ c ∈ s.relay.calls, c.id ≠ id

/-! ### Laws -/

/-- Law L3: at most 256 fade records, no two of one target. -/
def State.lawL3 (s : State) : Prop :=
  s.cue.fades.length ≤ Config.maxFades ∧ (s.cue.fades.map Fade.target).Nodup

/-- Law L5: the lengths of all clip records fit in clip memory. -/
def State.lawL5 (s : State) : Prop := (s.clip.clips.map Clip.length).sum ≤ Config.clipMemory

/-- The ids of the calls are distinct, and the queue keeps to its places (R135). -/
def State.callsLawful (s : State) : Prop :=
  (s.relay.calls.map Call.id).Nodup ∧ (s.relay.calls.filter fun c => c.priority != 3).length ≤ Config.maxCalls
    ∧ (s.relay.calls.filter fun c => c.priority == 3).length ≤ 1

/-- Law L7, first part, with the call queue in order: while a priority-3 call is ON_AIR the cue engine is HELD. -/
def State.lawL7 (s : State) : Prop := s.callsLawful ∧ (s.stopIsOnAir = true → s.cue.held = true)

/-- The cue list is in strictly rising order of number and keeps to its size (R81). -/
def State.listLawful (s : State) : Prop :=
  (s.cue.cues.map Cue.number).Pairwise (· < ·) ∧ s.cue.cues.length ≤ Config.maxCues
    ∧ actionTotal s.cue.cues ≤ Config.maxActions

/-- Law L11 with the order of the list: the standby, when present, is a cue in the list. -/
def State.lawL11 (s : State) : Prop :=
  s.listLawful ∧ ∀ n, s.cue.standby = some n → n ∈ s.cue.cues.map Cue.number

/-- The stores of the message controller keep to their sizes: 4 replies (R176), 32 event records (R184), 256 staged entries of
distinct keys (R182), and none while the hold is closed. -/
def State.storesBounded (s : State) : Prop :=
  s.msg.replies.length ≤ Config.maxReplies ∧ s.msg.events.length ≤ Config.maxEvents ∧ s.msg.staged.length ≤ Config.maxStaged
    ∧ s.msg.staged.Pairwise (fun a b => TableEntry.sameKey a b = false)
    ∧ (s.msg.holdOpen = false → s.msg.staged = [])

/-- The places of the replies stand in the order in which they were taken, and every place in use is older than the place the next
message takes: those of the replies in the queue, of the RESETs waiting for their boundary, and of the message that has completed
(R176). -/
def State.placesLawful (s : State) : Prop :=
  (s.msg.replies.map Reply.place).Pairwise (· < ·) ∧ s.placesFresh
    ∧ (∀ w ∈ s.msg.resets, ∀ p, w.place = some p → p < s.msg.nextPlace)
    ∧ ∀ c, s.msg.completed = some c → ∀ p, c.place = some p → p < s.msg.nextPlace

/-- A run is safe: no step of it stops. -/
def State.runsOn (s : State) (k : Nat) : Prop :=
  ∃ t, Host.Core.run { State := State, Fault := Fault, Refusal := Refusal, step := step, reset := State.reset } k s
    = .next t

end Sys2Proof.Machine
end

