-- ==== Sys2Proof/Certificates/Slice0/Obligations.lean ====
section
/-! DEFINITION. The statements about the node that the provers are asked for, block by block, in the terms of Safety.lean. A
statement whose conclusion is an equation with the next state says, by that, what the command leaves unchanged. -/

section

open Sys2Proof Sys2Proof.Machine

/-! ### The machine as a whole -/

/-- The step takes the command at the front of the queue and runs it with the rest of the queue; with no command it idles (the
queue and the idling are the model's own, log entry 13). -/
def Obligations.StepTakesTheFront : Prop :=
  ∀ s : State, (s.pending = [] → step s = .next s)
    ∧ ∀ c rest, s.pending = c :: rest → step s = exec c { s with pending := rest }

/-- No command stops the node, and none touches the queue of commands: that every command of the table answers a next state, and
that the queue is no command's to change, is the model's choice (log entry 13). -/
def Obligations.NoCommandStops : Prop :=
  ∀ (c : Instr) (s : State), ∃ t, exec c s = .next t ∧ t.pending = s.pending

/-- A cold reset gives every block the values of Tables 2-7, 3-6, 4-4, 5-5, 6-7, 7-5, 8-3 and 9-9, and the address that the
straps spell (R191, R192). -/
def Obligations.ColdResetValues : Prop :=
  ∀ (straps : BitVec 6) (s : State), ∃ t, exec (.coldReset straps) s = .next t
    ∧ t.link.state = .unlocked ∧ t.link.linkTimed = false ∧ t.link.upstream = none ∧ t.link.counter = 0
    ∧ t.link.reacquire = 0 ∧ t.link.timerRunning = false ∧ t.link.damaged = 0 ∧ t.link.hopDrop = 0 ∧ t.link.reverse = 0 ∧ t.link.loss = 0
    ∧ (∀ i : Fin 64, t.inputs[i].entry.source = none ∧ t.inputs[i].entry.spare = none ∧ t.inputs[i].entry.trim = 900
        ∧ t.inputs[i].entry.lossThreshold = 20 ∧ t.inputs[i].entry.restoreThreshold = 200
        ∧ t.inputs[i].entry.autoReturn = false ∧ t.inputs[i].entry.talkGroup = none ∧ t.inputs[i].state = .idle
        ∧ t.inputs[i].active = .primary ∧ t.inputs[i].invalidRun = 0 ∧ t.inputs[i].primaryRun = 0
        ∧ t.inputs[i].spareRun = 0 ∧ t.inputs[i].forced = false ∧ t.inputs[i].gateEnd = 0 ∧ t.inputs[i].clip = false ∧ t.inputs[i].meter = 0)
    ∧ (∀ (i : Fin 64) (b : Fin 32), t.mix.crosspoints[i][b] = 0)
    ∧ (∀ b : Fin 32, t.mix.buses[b].entry.kind = .unused ∧ t.mix.buses[b].entry.gain = 900
        ∧ t.mix.buses[b].entry.mute = false ∧ t.mix.buses[b].entry.limiter = false
        ∧ t.mix.buses[b].entry.threshold = 840 ∧ t.mix.buses[b].entry.release = 200
        ∧ t.mix.buses[b].entry.stopDuck = false ∧ t.mix.buses[b].muteEnd = 0 ∧ t.mix.buses[b].meter = 0
        ∧ t.mix.buses[b].duckState = .idle ∧ t.mix.buses[b].governing = none ∧ t.mix.buses[b].limitedNow = false
        ∧ t.mix.buses[b].duckEnd = 4194304 ∧ t.mix.buses[b].limiterGain = 4194304 ∧ t.mix.buses[b].clip = false ∧ t.mix.buses[b].limiting = false)
    ∧ (∀ o : Fin 40, t.mix.outputs[o].source = .none
        ∧ (24 ≤ o.val → t.mix.outputs[o].slot.val = o.val - 24))
    ∧ (∀ g : Fin 4, t.mix.talk[g].entry.input = none ∧ t.mix.talk[g].entry.buses = 0 ∧ t.mix.talk[g].entry.depth = 780
        ∧ t.mix.talk[g].entry.attack = 20 ∧ t.mix.talk[g].entry.release = 300 ∧ t.mix.talk[g].latch = false)
    ∧ t.cue.cues = [] ∧ t.cue.standby = none ∧ t.cue.lastFiring = none ∧ t.cue.lastCue = none ∧ t.cue.follow = none
    ∧ t.cue.fades = [] ∧ t.cue.held = false
    ∧ t.clip.clips = [] ∧ t.clip.capture = none ∧ t.clip.reserve = 2
    ∧ (∀ v : Fin 8, t.clip.voices[v].state = .idle ∧ t.clip.voices[v].playback = none ∧ t.clip.voices[v].gain = 900
        ∧ t.clip.voices[v].pending = none ∧ t.clip.voices[v].ending = .none ∧ t.clip.voices[v].factorEnd = 4194304)
    ∧ t.relay.calls = [] ∧ t.relay.lastId = 0 ∧ t.relay.accepted = 0
    ∧ (∀ z : Fin 16, t.relay.zones[z].entry.programme = none ∧ t.relay.zones[z].entry.level = 900
        ∧ t.relay.zones[z].entry.callLevel = 900 ∧ t.relay.zones[z].entry.duckDepth = 700
        ∧ t.relay.zones[z].entry.attack = 50 ∧ t.relay.zones[z].entry.release = 200
        ∧ t.relay.zones[z].duckState = .idle ∧ t.relay.zones[z].call = none ∧ t.relay.zones[z].duckEnd = 4194304
        ∧ t.relay.zones[z].latch = false ∧ t.relay.zones[z].lamp = false)
    ∧ t.msg.address = (if straps = 0 ∨ straps = 63 then none else some (straps.setWidth 8))
    ∧ t.msg.assembler = none ∧ t.msg.replies = [] ∧ t.msg.holdOpen = false ∧ t.msg.staged = [] ∧ t.msg.events = []
    ∧ t.msg.conditions = 0
    ∧ (∀ k : Fin 4, t.msg.node.groups[k] = 0) ∧ t.msg.node.guard = 500 ∧ t.msg.node.reserve = 2
    ∧ t.msg.node.holdLimit = 5000 ∧ t.msg.node.stopDepth = 600 ∧ (∀ k, k < 64 → t.msg.node.enables.getLsbD k = true)
    ∧ (∀ l : LineId, (t.ports.line l).taken = none ∧ (t.ports.line l).candidate = none ∧ (t.ports.line l).run = 0)
    ∧ t.ports.standsStill = false

/-- The reset pin, held asserted, makes the node stand still with its ports silent, its clocks stopped and its lamps dark, and
aborts what is in flight; from then on nothing but a cold reset changes it (R192; log entry 13). -/
def Obligations.ResetPinStandsStill : Prop :=
  ∀ s : State, ∃ t, exec .resetPinAsserted s = .next t
    ∧ t.ports.standsStill = true ∧ t.ports.clocks = .stopped ∧ (∀ n : Fin 24, t.ports.localOut[n] = silence)
    ∧ (∀ z : Fin 16, t.relay.zones[z].lamp = false) ∧ t.link.sent = none
    ∧ t.clip.capture = none ∧ (∀ v : Fin 8, t.clip.voices[v].state = .idle) ∧ t.cue.fades = [] ∧ t.cue.follow = none
    ∧ t.relay.calls = [] ∧ t.msg.assembler = none ∧ t.msg.replies = [] ∧ t.msg.staged = []
    ∧ ∀ c : Instr, (∀ straps, c ≠ .coldReset straps) → c ≠ .resetPinAsserted → exec c t = .next t

/-! ### The link -/

/-- A frame on the port that is not the upstream port is dropped and counted, and REVERSE_TRAFFIC is posted while its condition
is CLEAR; a frame with a hop count of 62 or more is dropped and counted (R159, R160). Of the frames that are taken outside LOCKED,
the first good arrival begins acquisition and fixes the upstream port, each further one counts, the 100th locks the link, and a
failed one makes it LOST; a failed arrival outside acquisition only counts as damaged; and 3 ms without an arrival make a
REACQUIRING link LOST and stop the timer in UNLOCKED and LOST (R161, R164, R165, R168). DAMAGED_FRAME names the state in which the
frame came, as the model infers (log entry 17); the condition of a kind whose post is on its way counts as SET (log entry 2). -/
def Obligations.ArrivalsOutsideLock : Prop :=
  ∀ (p : Port) (f : Frame) (env : Env) (s : State), s.ports.standsStill = false →
    let raised (k : EventKind) : Bool :=
      s.msg.conditions.getLsbD k.value || s.msg.coming.any fun e => e.post.kind == k
    (∀ q, s.link.upstream = some q → p ≠ q →
      exec (.frameArrival p f env) s = .next { s with
        link := { s.link with reverse := min 65535 (s.link.reverse + 1) }
        msg := if raised .reverseTraffic then s.msg else (s.post (reversePost p)).msg })
    ∧ (s.link.upstream = none ∨ s.link.upstream = some p → 62 ≤ f.hop.toNat →
      exec (.frameArrival p f env) s = .next { s with
        link := { s.link with hopDrop := min 65535 (s.link.hopDrop + 1) } })
    ∧ (s.link.upstream = none ∨ s.link.upstream = some p → f.hop.toNat < 62 →
    (f.passes = true → s.link.state = .unlocked ∨ s.link.state = .lost →
      exec (.frameArrival p f env) s = .next { s with
        link := { s.link with state := .reacquiring, reacquire := 1, upstream := some p, timerRunning := true } })
    ∧ (f.passes = true → s.link.state = .reacquiring → s.link.reacquire < 99 →
      exec (.frameArrival p f env) s = .next { s with
        link := { s.link with reacquire := s.link.reacquire + 1, timerRunning := true } })
    ∧ (f.passes = true → s.link.state = .reacquiring → s.link.reacquire = 99 →
      exec (.frameArrival p f env) s = .next { s with
        link := { s.link with
          state := .locked, linkTimed := false, reacquire := 100, timerRunning := true, lockedFor := 0
          locks := s.link.locks + 1 } })
    ∧ (f.passes = false → s.link.state = .reacquiring →
      exec (.frameArrival p f env) s = .next { s with
        link := { s.link with
          damaged := min 65535 (s.link.damaged + 1), state := .lost, linkTimed := false, reacquire := 0
          timerRunning := true }
        msg := if raised .damagedFrame then s.msg else (s.post (damagedPost .reacquiring)).msg })
    ∧ (f.passes = false → s.link.state = .unlocked ∨ s.link.state = .lost →
      exec (.frameArrival p f env) s = .next { s with
        link := { s.link with damaged := min 65535 (s.link.damaged + 1), timerRunning := true }
        msg := if raised .damagedFrame then s.msg else (s.post (damagedPost s.link.state)).msg }))
    ∧ (s.link.state = .reacquiring → exec .reacquireTimeout s = .next { s with
      link := { s.link with state := .lost, linkTimed := false, reacquire := 0, timerRunning := false } })
    ∧ (s.link.state = .unlocked ∨ s.link.state = .lost → exec .reacquireTimeout s = .next { s with
      link := { s.link with timerRunning := false } })

/-- A LINK-TIMED boundary, its work done in whatever order: the counter is the frame's number or one more when its check
fails, every slot is as the frame brings it, and exactly one frame goes on downstream, with a check that passes, the counter
as its number, one hop more, DAMAGED carried on, the request cell as it came, every slot that one send claims with the mix of
the frame before and its flag set, and every slot that no send claims as it came (R57, R58, R162, R165 to R168). The orders of
the work are those of log entry 2. -/
def Obligations.LinkTimedBoundary : Prop :=
  ∀ (p : Port) (f : Frame) (env : Env) (s : State),
    s.ports.standsStill = false → s.link.state = .locked → s.link.upstream = some p → f.hop.toNat < 62 →
    env.rest = true →
    ∃ t g, exec (.frameArrival p f env) s = .next t ∧ t.between ∧ t.link.sent = some g
      ∧ t.boundaries = s.boundaries + 1 ∧ t.link.linkTimed = true ∧ t.link.state = .locked
      ∧ t.link.counter = (if f.passes then f.number else s.link.counter + 1)
      ∧ t.link.damaged = (if f.passes then s.link.damaged else min 65535 (s.link.damaged + 1))
      ∧ (∀ i : Fin 64, t.link.slotValid[i] = (f.passes && !f.damaged && f.valid i) ∧ t.link.slots[i] = f.slot i)
      ∧ g.passes = true ∧ g.number = t.link.counter ∧ g.hop.toNat = f.hop.toNat + 1
      ∧ g.flags = (if f.passes && !f.damaged then 0 else 1) ∧ g.request = f.request
      ∧ (∀ o : Fin 40, 24 ≤ o.val → t.mix.outputs[o].source ≠ .none →
          (∀ q : Fin 40, 24 ≤ q.val → t.mix.outputs[q].source ≠ .none →
            t.mix.outputs[q].slot = t.mix.outputs[o].slot → q = o) →
          g.valid t.mix.outputs[o].slot = true
            ∧ ∀ n : Fin 48, g.audio[t.mix.outputs[o].slot][n] = toSample (t.mix.sourceOut t.mix.outputs[o].source)[n])
      ∧ ∀ i : Fin 64,
          (∀ o : Fin 40, 24 ≤ o.val → t.mix.outputs[o].source ≠ .none → t.mix.outputs[o].slot ≠ i) →
          g.audio[i] = f.audio[i] ∧ g.valid i = f.valid i

/-- A LOCAL-TIMED boundary: the counter goes up by 1, no frame is read or sent, every slot is invalid, and the local blocks
are those handed in, or zeros at the first boundary after the clocks have stood still (R169, R188). The orders of the work are
those of log entry 2. -/
def Obligations.LocalTimedBoundary : Prop :=
  ∀ (env : Env) (s : State), s.ports.standsStill = false → s.link.linkTimed = false → env.rest = true →
    ∃ t, exec (.localIntervalExpiry env) s = .next t ∧ t.between
      ∧ t.boundaries = s.boundaries + 1 ∧ t.link.counter = s.link.counter + 1 ∧ t.link.state = s.link.state
      ∧ t.link.sent = none ∧ (∀ i : Fin 64, t.link.slotValid[i] = false) ∧ t.ports.clocks = .localRate
      ∧ ∀ n : Fin 8, t.ports.localIn[n] = if s.ports.clocks = .stopped then silence else inputBlock env.audio[n]

/-- The boundary at which a LOCKED link becomes LOST: the counter goes up by 1, the loss is counted, nothing is sent and every
slot is invalid; LINK_LOST is posted with the boundaries the link was LOCKED, and may be so as soon as the NODE entry of the
boundary has applied. A whole boundary with no warm RESET waiting leaves its condition SET, whatever the order of its work, and its
record in the queue unless the queue is full (R163, R170, R180, R184). Which boundaries are counted is the model's choice (log entry
13), and so is the counter from which the 1 is counted when the loss comes before the first LINK-TIMED boundary (log entry 39). -/
def Obligations.LinkLossBoundary : Prop :=
  ∀ (env : Env) (s : State), s.ports.standsStill = false → s.link.state = .locked →
    ∃ t, exec (.linkLost env) s = .next t
      ∧ t.boundaries = s.boundaries + 1 ∧ t.link.counter = s.link.counter + 1 ∧ t.link.state = .lost
      ∧ t.link.linkTimed = false ∧ t.link.reacquire = 0 ∧ t.link.upstream = s.link.upstream
      ∧ t.link.loss = min 65535 (s.link.loss + 1) ∧ t.link.sent = none
      ∧ (∀ i : Fin 64, t.link.slotValid[i] = false)
      ∧ (env.rest = true → t.between)
      ∧ (env.order = [.lossEvent] → env.rest = false →
          ∃ u, exec (.linkLost { env with order := [.node] }) s = .next u
            ∧ t.msg = (u.post { kind := .linkLost, subject := .none, detail := bytes4 s.link.lockedFor }).msg)
      ∧ (env.rest = true → s.between → s.msg.completed = none → (∀ w ∈ s.msg.resets, w.isWarm = false) →
          t.msg.conditions.getLsbD 22 = true
          ∧ (t.msg.events.length < 32 →
            { stamp := s.link.counter + 1
              post := { kind := .linkLost, subject := .none, detail := bytes4 s.link.lockedFor } } ∈ t.msg.events))

/-! ### Local lines -/

/-- Every boundary samples every line once: a raw level equal to the taken level ends the run, one equal to the candidate lengthens
it, another begins it anew. A line whose candidate has stood for 20 boundaries takes it as its level and no other line moves; the GO
line hands on a press only from RELEASED to ASSERTED (R189, R190). -/
def Obligations.LevelTaken : Prop :=
  (∀ (env : Env) (s : State), s.between → s.link.linkTimed = false → env.order = [] → env.rest = false →
    let pin : LineId → Bool := fun line => match line with
      | .go => env.pins.go
      | .talk g => env.pins.talk.getLsbD g.val
      | .ack z => env.pins.ack.getLsbD z.val
      | .presence k => env.pins.presence.getLsbD k.val
    ∃ t, exec (.localIntervalExpiry env) s = .next t ∧ ∀ line : LineId,
      let l := s.ports.line line
      (l.taken = some (pin line) → t.ports.line line = { taken := l.taken, candidate := none, run := 0 })
      ∧ (l.taken ≠ some (pin line) → l.candidate = some (pin line) → l.run < 20 →
        t.ports.line line = { taken := l.taken, candidate := l.candidate, run := l.run + 1 })
      ∧ (l.taken ≠ some (pin line) → l.candidate ≠ some (pin line) →
        t.ports.line line = { taken := l.taken, candidate := some (pin line), run := 1 }))
  ∧ ∀ (line : LineId) (x : Bool) (s : State), s.atItem .levels → (s.ports.line line).candidate = some x →
    20 ≤ (s.ports.line line).run →
    ∃ q, exec (.levelTaken line) s = .next { s with ports := q }
      ∧ q.line line = { taken := some x, candidate := none, run := 0 }
      ∧ (∀ other, other ≠ line → q.line other = s.ports.line other)
      ∧ q.goPressed = (s.ports.goPressed || (line == .go && x && s.ports.go.taken == some false))
      ∧ q.localIn = s.ports.localIn ∧ q.localOut = s.ports.localOut ∧ q.clocks = s.ports.clocks
      ∧ q.standsStill = s.ports.standsStill

/-! ### Input supervision -/

/-- The supervision transitions. At its loss threshold an input in PRIMARY goes to a valid spare with INPUT_SUBSTITUTED (LOSS), one
in SPARE back to a valid primary with INPUT_RETURNED, each with a hard cut; with no valid source to go to it is LOST, with
INPUT_LOSS. An input in SPARE goes back to its recovered primary by itself when auto-return is YES and it was not forced; one in
LOST takes back its primary, or else its spare, once that has been valid for the restore threshold. Nothing else changes (R28 to
R30, R41). Before them the boundary counts the frame for every input that is not IDLE: the valid runs of its primary and its spare
and the invalid run of its active source go up by 1, to 65,535 at most, or become 0; an IDLE input's are 0 (R27, R31). After them
the input carries its active source, or none when LOST or IDLE: a change after a loss transition, or to a source that is invalid or
none, is a hard cut, and any other is a crossfade from the source carried before (R32, R33); whether a write of source NONE cuts or
fades is free (log entry 8). -/
def Obligations.SupervisionTransitions : Prop :=
  (∀ (s : State) (i : Fin 64),
    let r := s.inputs[i]
    let q := (runItem .count s).inputs[i]
    let works (x : Option Src) : Prop := ∃ y, x = some y ∧ s.sourceValid y = true
    let active := match r.active with | .primary => r.entry.source | .spare => r.entry.spare
    q = { r with primaryRun := q.primaryRun, spareRun := q.spareRun, invalidRun := q.invalidRun }
    ∧ runItem .count s = { s with inputs := (runItem .count s).inputs }
    ∧ (r.state = .idle → q.primaryRun = 0 ∧ q.spareRun = 0 ∧ q.invalidRun = 0)
    ∧ (r.state ≠ .idle →
      (works r.entry.source → q.primaryRun = min 65535 (r.primaryRun + 1))
      ∧ (¬ works r.entry.source → q.primaryRun = 0)
      ∧ (works r.entry.spare → q.spareRun = min 65535 (r.spareRun + 1))
      ∧ (¬ works r.entry.spare → q.spareRun = 0)
      ∧ (works active → q.invalidRun = 0)
      ∧ (¬ works active → q.invalidRun = min 65535 (r.invalidRun + 1))))
  ∧ (∀ (s : State) (i : Fin 64),
    let r := s.inputs[i]
    let next := match r.state with
      | .primary => r.entry.source
      | .spare => r.entry.spare
      | .idle | .lost => none
    let works := ∃ y, next = some y ∧ s.sourceValid y = true
    let t := runItem .carry s
    t = { s with inputs := t.inputs }
    ∧ (next = r.carried → t.inputs[i] = { r with outgoing := none })
    ∧ (next ≠ r.carried → r.lossCut = true ∨ (¬ works ∧ r.state ≠ .idle) →
      t.inputs[i] = { r with carried := next, outgoing := none })
    ∧ (next ≠ r.carried → r.lossCut = false → works →
      t.inputs[i] = { r with carried := next, outgoing := some r.carried })
    ∧ (next ≠ r.carried → r.lossCut = false → r.state = .idle →
      t.inputs[i] = { r with carried := none, outgoing := if Config.noneFades then some r.carried else none }))
  ∧ ∀ (i : Fin 64) (s : State), s.atItem .transitions →
    (s.inputs[i].entry.lossThreshold ≤ s.inputs[i].invalidRun →
    (s.inputs[i].state = .primary → s.inputs[i].active = .primary →
      (∃ x, s.inputs[i].entry.spare = some x ∧ s.sourceValid x = true) →
      exec (.primaryLoss i) s = .next ((s.onInput i fun r =>
        { r with state := .spare, active := .spare, invalidRun := 0, lossCut := true }).post
          { kind := .inputSubstituted, subject := .input i, detail := [0] }))
    ∧ (s.inputs[i].state = .primary → s.inputs[i].active = .primary →
      (∀ x, s.inputs[i].entry.spare = some x → s.sourceValid x = false) →
      exec (.primaryLoss i) s = .next ((s.onInput i fun r => { r with state := .lost, lossCut := true }).post
        { kind := .inputLoss, subject := .input i, detail := [0] ++ yesNo s.inputs[i].entry.spare.isSome }))
    ∧ (s.inputs[i].state = .spare → s.inputs[i].active = .spare →
      (∃ x, s.inputs[i].entry.source = some x ∧ s.sourceValid x = true) →
      exec (.spareLoss i) s = .next ((s.onInput i fun r =>
        { r with state := .primary, active := .primary, invalidRun := 0, lossCut := true, forced := false }).post
          { kind := .inputReturned, subject := .input i, detail := [] }))
    ∧ (s.inputs[i].state = .spare → s.inputs[i].active = .spare →
      (∀ x, s.inputs[i].entry.source = some x → s.sourceValid x = false) →
      exec (.spareLoss i) s = .next ((s.onInput i fun r =>
        { r with state := .lost, active := .primary, invalidRun := 1, lossCut := true, forced := false }).post
          { kind := .inputLoss, subject := .input i, detail := [1] ++ yesNo s.inputs[i].entry.spare.isSome })))
    ∧ (s.inputs[i].state = .spare → s.inputs[i].active = .spare →
      s.inputs[i].invalidRun < s.inputs[i].entry.lossThreshold → s.inputs[i].entry.autoReturn = true →
      s.inputs[i].forced = false → s.inputs[i].entry.restoreThreshold ≤ s.inputs[i].primaryRun →
      (∃ x, s.inputs[i].entry.source = some x ∧ s.sourceValid x = true) →
      exec (.autoReturn i) s = .next ((s.onInput i fun r =>
        { r with state := .primary, active := .primary, invalidRun := 0 }).post
          { kind := .inputRestored, subject := .input i, detail := [0] }))
    ∧ (s.inputs[i].state = .lost → s.inputs[i].active = .primary →
      s.inputs[i].entry.restoreThreshold ≤ s.inputs[i].primaryRun →
      exec (.restore i) s = .next ((s.onInput i fun r => { r with state := .primary }).post
        { kind := .inputRestored, subject := .input i, detail := [1] }))
    ∧ (s.inputs[i].state = .lost → s.inputs[i].active = .primary →
      s.inputs[i].primaryRun < s.inputs[i].entry.restoreThreshold →
      s.inputs[i].entry.restoreThreshold ≤ s.inputs[i].spareRun →
      (∃ x, s.inputs[i].entry.spare = some x ∧ s.sourceValid x = true) →
      exec (.restore i) s = .next ((s.onInput i fun r =>
        { r with state := .spare, active := .spare, invalidRun := 0 }).post
          { kind := .inputSubstituted, subject := .input i, detail := [1] }))

/-- INPUT SELECT is checked at once, in the order index and choice, spare, validity; accepted, it waits for the next boundary and
its reply carries the state and the active source; refused, it changes nothing (R36). -/
def Obligations.InputSelectChecked : Prop :=
  ∀ (o : Origin) (input choice : U8) (s : State), s.between → s.hears o →
    (64 ≤ input.toNat ∨ 2 ≤ choice.toNat →
      exec (.inputSelect o input choice) s = .next (s.replied o { code := .range }))
    ∧ ∀ (i : Fin 64) (side : Side), i.val = input.toNat → choice = (if side = .primary then 0 else 1) →
      let chosen := if side = .primary then s.inputs[i].entry.source else s.inputs[i].entry.spare
      (s.inputs[i].entry.spare = none →
        exec (.inputSelect o input choice) s = .next (s.replied o { code := .range }))
      ∧ (s.inputs[i].entry.spare ≠ none → (∀ x, chosen = some x → s.sourceValid x = false) →
        exec (.inputSelect o input choice) s = .next (s.replied o { code := .invalidSource }))
      ∧ (s.inputs[i].entry.spare ≠ none → (∃ x, chosen = some x ∧ s.sourceValid x = true) →
        exec (.inputSelect o input choice) s = .next
          ((s.onMsg fun m => { m with accepted := m.accepted ++ [.select i side] }).replied o
            { code := .ok, data := byte s.inputs[i].state.ctorIdx ++ byte s.inputs[i].active.ctorIdx }))

/-! ### Foldback and sample arithmetic -/

/-- TALK is checked at once: a group above 3 or a setting other than ON and OFF is refused and changes nothing; otherwise it waits
for the next boundary, and its reply carries line, latch and key as they stand (R64). There the accepted TALKs apply in the order in
which they were taken: the last one of a group leaves its latch as it stands, a group that none names keeps its latch, none is left,
and nothing else changes (R65). -/
def Obligations.TalkChecked : Prop :=
  (∀ s : State,
    let t := runItem .talks s
    t = { s with mix := { s.mix with talk := t.mix.talk }, msg := { s.msg with talks := [] } }
    ∧ ∀ g : Fin 4,
      ((∀ x ∈ s.msg.talks, x.1 ≠ g) → t.mix.talk[g] = s.mix.talk[g])
      ∧ ∀ before on later, s.msg.talks = before ++ (g, on) :: later → (∀ x ∈ later, x.1 ≠ g) →
        t.mix.talk[g] = { s.mix.talk[g] with latch := on })
  ∧ ∀ (o : Origin) (group setting : U8) (s : State), s.between → s.hears o →
    (4 ≤ group.toNat ∨ 2 ≤ setting.toNat → exec (.talk o group setting) s = .next (s.replied o { code := .range }))
    ∧ ∀ (g : Fin 4) (on : Bool), g.val = group.toNat → setting = (if on then 1 else 0) →
      exec (.talk o group setting) s = .next
        ((s.onMsg fun m => { m with talks := m.talks ++ [(g, on)] }).replied o
          { code := .ok
            data := [if s.ports.talk[g].taken = some true then 0 else 1] ++ [if s.mix.talk[g].latch then 1 else 0]
              ++ [if s.mix.talk[g].key then 1 else 0] })

/-- Law L2: no sample of a FOLDBACK bus with its limiter ON is larger in magnitude than the threshold of its threshold code, in
any state and for any input signals (R12 to R14). -/
def Obligations.LimiterKeepsThreshold : Prop :=
  ∀ (s : State) (signals : Vector Block 64) (b : Fin 32) (n : Fin 48),
    s.mix.buses[b].entry.kind = .foldback → s.mix.buses[b].entry.limiter = true →
    ((s.busFrame signals b).out[n]).natAbs ≤ limiterThreshold s.mix.buses[b].entry.threshold

/-- A duck end value moves toward its target by floor of |unity - depth| over the attack or the release, at least 1 and at most
the distance left: it never passes the target, lands on it, and then stays (R20). -/
def Obligations.DuckStepLands : Prop :=
  ∀ e target depth attack release : Nat, 1 ≤ attack → 1 ≤ release →
    let step (time : Nat) := max 1 ((if depth ≤ 4194304 then 4194304 - depth else depth - 4194304) / time)
    (target < e → duckMove e target depth attack release = e - min (step attack) (e - target)
      ∧ target ≤ duckMove e target depth attack release ∧ duckMove e target depth attack release < e)
    ∧ (e < target → duckMove e target depth attack release = e + min (step release) (target - e)
      ∧ e < duckMove e target depth attack release ∧ duckMove e target depth attack release ≤ target)
    ∧ (e = target → duckMove e target depth attack release = e)
    ∧ (depth = 0 → target = 0 → attack = 1 → e ≤ 4194304 → duckMove e target depth attack release = 0)

/-- Every live gain of a LINEAR fade lies between its start and its end, and the last sample of its last frame is the end; every
code of a LEVEL fade lies between its two codes, and the last is the end code (R17, R18). -/
def Obligations.FadesStayBetween : Prop :=
  ∀ (f : Fade) (k n : Nat), k < f.frames → n < 48 →
    (∀ a, f.start = .linear a →
      min a (lin f.endCode) ≤ f.gainAt k n ∧ f.gainAt k n ≤ max a (lin f.endCode)
      ∧ f.gainAt (f.frames - 1) 47 = lin f.endCode)
    ∧ (∀ c, f.start = .level c →
      min c f.endCode ≤ levelAt c f.endCode f.frames k ∧ levelAt c f.endCode f.frames k ≤ max c f.endCode
      ∧ f.gainAt k n = lin (levelAt c f.endCode f.frames k)
      ∧ levelAt c f.endCode f.frames (f.frames - 1) = f.endCode)

/-- The inverse lookup takes the largest code whose gain is not above the value, 0 below the gain of code 1, and undoes the level
table (R2). -/
def Obligations.InverseLookup : Prop :=
  (∀ c : LevelCode, inv (lin c) = c) ∧ (∀ v : Nat, lin (inv v) ≤ v) ∧ (∀ v : Nat, v < 134 → inv v = 0)
    ∧ (∀ (v : Nat) (c : LevelCode), lin c ≤ v → c ≤ inv v)
    ∧ (∀ v : Nat, lin 1000 ≤ v → inv v = 1000) ∧ inv 3000000 = 870 ∧ inv 2102131 = 839

/-- At every boundary the key of a talk group is ON when its line is asserted or its latch is ON; the group is live when its key is
ON and its talk input, if it names one, is in PRIMARY or SPARE; and the gate target of an input is open, 4,194,304, unless it names
a group whose key is OFF, when it is 0. The frame takes the gate end value to the target (R39, R66, R67). The duck of a FOLDBACK bus
has as its sources the live groups that list it and the show-stop, which stands as the pass before left it; the deepest governs,
of several the one that governed, else the show-stop, else the lowest group; with none the target is unity and the governing
source stays; the end value makes one move of R20 with that source's times, and the duck state follows Table 4-3; any other bus is
IDLE at unity (R68 to R72, R51). The mute of a bus in use ramps from its end value to 0 or to unity, that of an UNUSED bus is 0
(R52, R54). The same work changes nothing else. That the gate of an input that names no group opens at every boundary, the first
after cold reset and an IDLE input included, is the model's choice between two sentences of R39 (log entry 37). -/
def Obligations.KeysLivenessAndGates : Prop :=
  ∀ s : State,
    let t := runItem .keys s
    let key (g : Fin 4) : Bool := s.ports.talk[g].taken == some true || s.mix.talk[g].latch
    (∀ g : Fin 4, ∃ live : Bool, t.mix.talk[g] = { s.mix.talk[g] with key := key g, live := live }
      ∧ (live = true ↔ key g = true ∧ ∀ i : Fin 64, s.mix.talk[g].entry.input = some i →
          s.inputs[i].state = .primary ∨ s.inputs[i].state = .spare))
    ∧ (∀ i : Fin 64,
      (s.inputs[i].entry.talkGroup = none → t.inputs[i] = { s.inputs[i] with gateTarget := 4194304 })
      ∧ ∀ g, s.inputs[i].entry.talkGroup = some g →
        t.inputs[i] = { s.inputs[i] with gateTarget := if key g then 4194304 else 0 })
    ∧ (∀ i : Fin 64, s.closeFrame.inputs[i] = { s.inputs[i] with gateEnd := s.inputs[i].gateTarget })
    ∧ t = { s with
        inputs := t.inputs
        mix := { s.mix with talk := t.mix.talk, buses := t.mix.buses } }
    ∧ (∀ b : Fin 32,
      let r := s.mix.buses[b]
      let q := t.mix.buses[b]
      let active (x : DuckSource) : Prop := match x with
        | .stop => r.entry.stopDuck = true ∧ s.mix.stopStands = true
        | .talk g => t.mix.talk[g].live = true ∧ s.mix.talk[g].entry.buses.getLsbD b.val = true
      let depth (x : DuckSource) : Nat := match x with
        | .stop => lin s.msg.node.stopDepth
        | .talk g => lin s.mix.talk[g].entry.depth
      let times (x : DuckSource) : Nat × Nat := match x with
        | .stop => (1, 1000)
        | .talk g => (s.mix.talk[g].entry.attack, s.mix.talk[g].entry.release)
      let deepest (x : DuckSource) : Prop := active x ∧ ∀ y, active y → depth x ≤ depth y
      q = { r with duckFrom := q.duckFrom, duckEnd := q.duckEnd, governing := q.governing, duckState := q.duckState
                   muteFrom := q.muteFrom, muteEnd := q.muteEnd }
      ∧ (r.entry.kind ≠ .foldback →
        q.duckFrom = 4194304 ∧ q.duckEnd = 4194304 ∧ q.governing = none ∧ q.duckState = .idle)
      ∧ (r.entry.kind = .foldback →
        q.duckFrom = r.duckEnd
        ∧ ((∀ x, ¬ active x) → q.governing = r.governing
          ∧ (∀ g, r.governing = some g → q.duckEnd = duckMove r.duckEnd 4194304 (depth g) (times g).1 (times g).2)
          ∧ (r.governing = none → q.duckEnd = r.duckEnd)
          ∧ q.duckState = if q.duckEnd < 4194304 then .releasing else if 4194304 < q.duckEnd then .attacking else .idle)
        ∧ ((∃ x, active x) → ∃ g, q.governing = some g ∧ deepest g
          ∧ (∀ x, r.governing = some x → deepest x → g = x)
          ∧ ((∀ x, r.governing = some x → ¬ deepest x) → deepest .stop → g = .stop)
          ∧ ((∀ x, r.governing = some x → ¬ deepest x) → ¬ deepest .stop →
            ∃ n : Fin 4, g = .talk n ∧ ∀ m : Fin 4, m < n → ¬ deepest (.talk m))
          ∧ q.duckEnd = duckMove r.duckEnd (depth g) (depth g) (times g).1 (times g).2
          ∧ q.duckState = if q.duckEnd < depth g then .releasing else if depth g < q.duckEnd then .attacking else .heldDown))
      ∧ (r.entry.kind = .unused → q.muteFrom = 0 ∧ q.muteEnd = 0)
      ∧ (r.entry.kind ≠ .unused → q.muteFrom = r.muteEnd ∧ q.muteEnd = if r.entry.mute then 0 else 4194304))
    ∧ ∀ env clocks items, (s.openFrame env clocks items).mix.stopStands = s.relay.stopOnAir

/-- Every local output is handed the previous frame's output of the bus or zone its entry names, or zeros, and nothing else changes
(R56). The output of a zone is the sum of its RELAY programme under the zone's duck and of its call audio at the call level, each
rounded, at the live zone level, saturated; the call audio is that of the call SPEAKING in the zone, the output of its voice or the
signal of its input, and 0 when there is neither a call nor the one-frame cut of one in the zone (R15, R58). The end of a frame
raises the meter of every input to the largest sample after trim, before the gate, and SETs its clip flag when a raw sample is at a
rail or a saturation changed a value; INPUT_CLIP is posted for each flag that was CLEAR and is now SET (R8, R40, R42). It does the
same for every bus: the sum, gained, ducked and muted, is limited on a FOLDBACK bus with its limiter ON and saturated on another;
the meter takes its output, the clip flag its saturation, and the limiting flag a required gain below unity, with BUS_CLIP and
LIMITING for each flag that becomes SET (R9 to R14, R59, R60, R77). -/
def Obligations.OutputsAndZones : Prop :=
  (∀ s : State, ∃ outs, runItem .outputs s = s.onPorts (fun p => { p with localOut := outs })
    ∧ ∀ n : Fin 24, ∀ o : Fin 40, o.val = n.val →
      outs[n] = match s.mix.outputs[o].source with
        | .none => silence
        | .bus b => s.mix.busOut[b]
        | .zone z => s.mix.zoneOut[z])
  ∧ (∀ (s : State) (z : Fin 16),
    let signals := signalsOf (s.inputFrames s.sources)
    let call := s.callFeed s.sources signals z
    let zone := s.relay.zones[z]
    (∀ n : Fin 48,
      let prog : Int := match zone.entry.programme with
        | some b => if s.mix.buses[b].entry.kind = .relay then s.closeFrame.mix.busOut[b][n] else 0
        | none => 0
      s.closeFrame.mix.zoneOut[z][n] = saturate (roundQ
        ((roundQ (prog * ramp zone.duckFrom zone.duckEnd n.val) + roundQ (call[n] * lin zone.entry.callLevel))
          * s.liveGain (.zoneLevel z) n.val)))
    ∧ (zone.call = none → zone.tail = none → call = silence)
    ∧ (∀ c k v, zone.call.bind s.callOf = some c → c.state = .onAir true → c.source = .clip k → c.voice = some v →
      call = s.voiceBlock v)
    ∧ ∀ c i, zone.call.bind s.callOf = some c → c.state = .onAir true → c.source = .input i → call = signals[i])
  ∧ ∀ s : State,
    let signals := signalsOf (s.inputFrames s.sources)
    let t := runItem .inputMeters s
    let u := runItem .busMeters s
    (∀ i : Fin 64,
      let r := s.inputs[i]
      let incoming := sourceBlock s.sourceValid s.sources r.carried
      let outgoing := sourceBlock s.sourceValid s.sources (r.outgoing.getD none)
      let x (n : Fin 48) : Int := if r.outgoing = none then incoming[n] else crossfadeSum outgoing[n] incoming[n] n.val
      let y (n : Fin 48) : Int := roundQ (saturate (x n) * lin r.entry.trim)
      ∃ clip meter, t.inputs[i] = { r with clip := clip, meter := meter }
        ∧ (clip = true ↔ r.clip = true ∨ ∃ n : Fin 48, atRail incoming[n] = true ∨ atRail outgoing[n] = true
          ∨ overflows (x n) = true ∨ overflows (y n) = true)
        ∧ r.meter ≤ meter ∧ (∀ n, (saturate (y n)).natAbs ≤ meter)
        ∧ (meter = r.meter ∨ ∃ n, meter = (saturate (y n)).natAbs))
    ∧ (∃ posts : List Post, t = State.postAll { s with inputs := t.inputs } posts ∧ posts.Nodup
      ∧ ∀ p, p ∈ posts ↔ ∃ i : Fin 64, p = { kind := .inputClip, subject := .input i, detail := [] }
          ∧ s.inputs[i].clip = false ∧ t.inputs[i].clip = true)
    ∧ (∀ b : Fin 32,
      let r := s.mix.buses[b]
      let f := s.busFrame signals b
      let q := u.mix.buses[b]
      let level (n : Fin 48) : Int := roundQ (
        roundQ ((List.finRange 64).map fun i => signals[i][n] * (s.liveGain (.crosspoint i b) n.val : Int)).sum
          * combinedGain (s.liveGain (.busGain b) n.val) (ramp r.duckFrom r.duckEnd n.val) (ramp r.muteFrom r.muteEnd n.val))
      let limits := r.entry.kind = .foldback ∧ r.entry.limiter = true
      q = { r with limitedNow := q.limitedNow, limiting := r.limiting || q.limitedNow, clip := q.clip, meter := q.meter }
      ∧ s.closeFrame.mix.busOut[b] = f.out
      ∧ r.meter ≤ q.meter ∧ (∀ n : Fin 48, f.out[n].natAbs ≤ q.meter)
      ∧ (q.meter = r.meter ∨ ∃ n : Fin 48, q.meter = f.out[n].natAbs)
      ∧ (r.entry.kind = .unused → f.out = silence ∧ q.limitedNow = false ∧ q.clip = r.clip)
      ∧ (r.entry.kind ≠ .unused → ¬ limits → (∀ n : Fin 48, f.out[n] = saturate (level n)) ∧ q.limitedNow = false
        ∧ (q.clip = true ↔ r.clip = true ∨ ∃ n, overflows (level n) = true))
      ∧ (limits → ∃ peak gain, (∀ n, (level n).natAbs ≤ peak) ∧ (∃ n, (level n).natAbs = peak)
        ∧ f.required = requiredGain (limiterThreshold r.entry.threshold) peak
        ∧ gain = limiterGain f.required r.limiterGain r.entry.release ∧ s.closeFrame.mix.buses[b].limiterGain = gain
        ∧ (∀ n : Fin 48, f.out[n] = limitedSample (level n) gain)
        ∧ (q.limitedNow = true ↔ limiterThreshold r.entry.threshold < peak)
        ∧ (q.clip = true ↔ r.clip = true ∨ ∃ n, overflows (roundQ (level n * gain)) = true)))
    ∧ ∃ posts : List Post, u = State.postAll { s with mix := { s.mix with buses := u.mix.buses } } posts ∧ posts.Nodup
      ∧ ∀ p, p ∈ posts ↔ ∃ b : Fin 32,
        (p = { kind := .limiting, subject := .bus b, detail := bytes2 (inv (s.busFrame signals b).required).val }
          ∧ s.mix.buses[b].limiting = false ∧ u.mix.buses[b].limiting = true)
        ∨ (p = { kind := .busClip, subject := .bus b, detail := [] }
          ∧ s.mix.buses[b].clip = false ∧ u.mix.buses[b].clip = true)

/-! ### Tables -/

/-- A TABLE WRITE of any table, checked and with no hold open, waits for the next boundary with every taken entry, and its
reply carries their count and their prior values, the live ones where the entry holds a level a fade can move (R48, R178). The
two-byte count of the reply is the model's choice (log entry 10). With a hold open or not, it is refused with RANGE for a first
index beyond the table, for a window that does not fit and for a taken entry that its owner refuses, and with IN_USE for an output
entry that would claim a slot claimed already (R22, R46, R55, R178); which claims count is the model's choice (log entry 15). -/
def Obligations.TableWritesAccepted : Prop :=
  (∀ (o : Origin) (s : State), s.between → s.hears o →
    let refused (c : Instr) (code : ResultCode) : Prop := exec c s = .next (s.replied o { code := code })
    (∀ first es, 63 < first.toNat ∨ (placed 64 first.toNat es).any (fun x => (checkInput x.2).isNone) = true →
      refused (.tableWriteInput o first es) .range)
    ∧ (∀ window codes, checkWindow window = none → refused (.tableWriteCrosspoint o window codes) .range)
    ∧ (∀ first es, 31 < first.toNat ∨ (placed 32 first.toNat es).any (fun x => (checkBus x.2).isNone) = true →
      refused (.tableWriteBus o first es) .range)
    ∧ (∀ first es, 39 < first.toNat ∨ (placed 40 first.toNat es).any (fun x => (checkOutput x.1 x.2).isNone) = true →
      refused (.tableWriteOutput o first es) .range)
    ∧ (∀ first es taken, first.toNat < 40 →
      allSome ((placed 40 first.toNat es).map fun x => (checkOutput x.1 x.2).map (.output x.1)) = some taken →
      s.slotClash taken = true → refused (.tableWriteOutput o first es) .inUse)
    ∧ (∀ first es, 15 < first.toNat ∨ (placed 16 first.toNat es).any (fun x => (checkZone x.2).isNone) = true →
      refused (.tableWriteZone o first es) .range)
    ∧ (∀ first es, 3 < first.toNat ∨ (placed 4 first.toNat es).any (fun x => (checkTalk x.2).isNone) = true →
      refused (.tableWriteTalk o first es) .range)
    ∧ (∀ first codes, 7 < first.toNat → refused (.tableWriteVoice o first codes) .range)
    ∧ ∀ first es, 0 < first.toNat ∨ (placed 1 first.toNat es).any (fun x => (checkNode x.2).isNone) = true →
      refused (.tableWriteNode o first es) .range)
  ∧ ∀ (o : Origin) (s : State), s.between → s.hears o → s.msg.holdOpen = false →
    let accepted (taken : List TableEntry) (priors : List (List U8)) : State :=
      (s.onMsg fun m => { m with accepted := m.accepted ++ taken.map (.write false) }).replied o
        { code := .ok, data := bytes2 taken.length ++ priors.flatten }
    (∀ first es taken, first.toNat < 64 →
      allSome ((placed 64 first.toNat es).map fun x => (checkInput x.2).map (.input x.1)) = some taken →
      exec (.tableWriteInput o first es) s
        = .next (accepted taken ((placed 64 first.toNat es).map fun x => s.inputs[x.1].entry.bytes)))
    ∧ (∀ window codes cells, checkWindow window = some cells →
      exec (.tableWriteCrosspoint o window codes) s
        = .next (accepted ((cells.zip codes).map fun x => .crosspoint x.1.1 x.1.2 (clampCode x.2.toNat))
            ((cells.zip codes).map fun x => bytes2 (s.carriedCode (.crosspoint x.1.1 x.1.2)).val)))
    ∧ (∀ first es taken, first.toNat < 32 →
      allSome ((placed 32 first.toNat es).map fun x => (checkBus x.2).map (.bus x.1)) = some taken →
      exec (.tableWriteBus o first es) s
        = .next (accepted taken ((placed 32 first.toNat es).map fun x =>
            s.mix.buses[x.1].entry.bytes (s.carriedCode (.busGain x.1)))))
    ∧ (∀ first es taken, first.toNat < 40 →
      allSome ((placed 40 first.toNat es).map fun x => (checkOutput x.1 x.2).map (.output x.1)) = some taken →
      s.slotClash taken = false →
      exec (.tableWriteOutput o first es) s
        = .next (accepted taken ((placed 40 first.toNat es).map fun x => s.mix.outputs[x.1].bytes)))
    ∧ (∀ first es taken, first.toNat < 16 →
      allSome ((placed 16 first.toNat es).map fun x => (checkZone x.2).map (.zone x.1)) = some taken →
      exec (.tableWriteZone o first es) s
        = .next (accepted taken ((placed 16 first.toNat es).map fun x =>
            s.relay.zones[x.1].entry.bytes (s.carriedCode (.zoneLevel x.1)))))
    ∧ (∀ first es taken, first.toNat < 4 →
      allSome ((placed 4 first.toNat es).map fun x => (checkTalk x.2).map (.talk x.1)) = some taken →
      exec (.tableWriteTalk o first es) s
        = .next (accepted taken ((placed 4 first.toNat es).map fun x => s.mix.talk[x.1].entry.bytes)))
    ∧ (∀ (first : U8) (codes : List U16), first.toNat < 8 →
      exec (.tableWriteVoice o first codes) s
        = .next (accepted ((placed 8 first.toNat codes).map fun x => .voice x.1 (clampCode x.2.toNat))
            ((placed 8 first.toNat codes).map fun x => bytes2 (s.carriedCode (.voiceGain x.1)).val)))
    ∧ (∀ es taken, allSome ((placed 1 0 es).map fun x => (checkNode x.2).map .node) = some taken →
      exec (.tableWriteNode o 0 es) s = .next (accepted taken ((placed 1 0 es).map fun _ => s.msg.node.bytes)))

/-- While a hold is open a checked TABLE WRITE of any table goes into the staged store, each entry in the place of the entry of
its key, and is refused whole with STAGE_FULL when the store would pass 256 entries (R182). The two-byte count of the reply is
the model's choice (log entry 10). -/
def Obligations.HeldWritesAreStaged : Prop :=
  ∀ (o : Origin) (s : State), s.between → s.hears o → s.msg.holdOpen = true →
    let staged (c : Instr) (taken : List TableEntry) (priors : List (List U8)) : Prop :=
      let needed := s.msg.staged.length + (taken.filter fun e => !(s.msg.staged.any fun x => x.sameKey e)).length
      (needed ≤ 256 → exec c s = .next ((s.onMsg fun m => { m with staged := taken.foldl stage m.staged }).replied o
        { code := .ok, data := bytes2 taken.length ++ priors.flatten }))
      ∧ (256 < needed → exec c s = .next (s.replied o { code := .stageFull }))
    (∀ first es taken, first.toNat < 64 →
      allSome ((placed 64 first.toNat es).map fun x => (checkInput x.2).map (.input x.1)) = some taken →
      staged (.tableWriteInput o first es) taken
        ((placed 64 first.toNat es).map fun x => s.inputs[x.1].entry.bytes))
    ∧ (∀ window codes cells, checkWindow window = some cells →
      staged (.tableWriteCrosspoint o window codes)
        ((cells.zip codes).map fun x => .crosspoint x.1.1 x.1.2 (clampCode x.2.toNat))
        ((cells.zip codes).map fun x => bytes2 (s.carriedCode (.crosspoint x.1.1 x.1.2)).val))
    ∧ (∀ first es taken, first.toNat < 32 →
      allSome ((placed 32 first.toNat es).map fun x => (checkBus x.2).map (.bus x.1)) = some taken →
      staged (.tableWriteBus o first es) taken
        ((placed 32 first.toNat es).map fun x => s.mix.buses[x.1].entry.bytes (s.carriedCode (.busGain x.1))))
    ∧ (∀ first es taken, first.toNat < 40 →
      allSome ((placed 40 first.toNat es).map fun x => (checkOutput x.1 x.2).map (.output x.1)) = some taken →
      s.slotClash taken = false →
      staged (.tableWriteOutput o first es) taken ((placed 40 first.toNat es).map fun x => s.mix.outputs[x.1].bytes))
    ∧ (∀ first es taken, first.toNat < 16 →
      allSome ((placed 16 first.toNat es).map fun x => (checkZone x.2).map (.zone x.1)) = some taken →
      staged (.tableWriteZone o first es) taken
        ((placed 16 first.toNat es).map fun x => s.relay.zones[x.1].entry.bytes (s.carriedCode (.zoneLevel x.1))))
    ∧ (∀ first es taken, first.toNat < 4 →
      allSome ((placed 4 first.toNat es).map fun x => (checkTalk x.2).map (.talk x.1)) = some taken →
      staged (.tableWriteTalk o first es) taken ((placed 4 first.toNat es).map fun x => s.mix.talk[x.1].entry.bytes))
    ∧ (∀ (first : U8) (codes : List U16), first.toNat < 8 →
      staged (.tableWriteVoice o first codes)
        ((placed 8 first.toNat codes).map fun x => .voice x.1 (clampCode x.2.toNat))
        ((placed 8 first.toNat codes).map fun x => bytes2 (s.carriedCode (.voiceGain x.1)).val))
    ∧ (∀ es taken, allSome ((placed 1 0 es).map fun x => (checkNode x.2).map .node) = some taken →
      staged (.tableWriteNode o 0 es) taken ((placed 1 0 es).map fun _ => s.msg.node.bytes))

/-- What an accepted entry does as it applies: the entry takes its value, a fade on its target is gone and its item of the pending
follow closes, and every other entry of its table stays. A write of the sources of an input resets its supervision, a write that changes the kind of a bus sets the bus up
anew, a limiter that is OFF holds unity gain, and what was accepted applies in the order in which it was taken (R34, R35, R38, R47,
R52, R53, R55, R63, R76, R99, R106, R123, R132, R180). That an input whose source is written to NONE holds PRIMARY as its active source
is the model's choice (log entry 30). -/
def Obligations.WritesApply : Prop :=
  ∀ s : State,
    (∀ i b c, (s.applyEntry (.crosspoint i b c)).setCode (.crosspoint i b) = c
      ∧ (s.applyEntry (.crosspoint i b c)).fadeOf (.crosspoint i b) = none
      ∧ s.itemsClosed (s.applyEntry (.crosspoint i b c)) (fun _ x => x == .fade (.crosspoint i b))
      ∧ ∀ t, t ≠ .crosspoint i b → (s.applyEntry (.crosspoint i b c)).setCode t = s.setCode t
        ∧ (s.applyEntry (.crosspoint i b c)).fadeOf t = s.fadeOf t)
    ∧ (∀ b e, (s.applyEntry (.bus b e)).mix.buses[b].entry = e ∧ (s.applyEntry (.bus b e)).fadeOf (.busGain b) = none
      ∧ s.itemsClosed (s.applyEntry (.bus b e)) (fun _ x => x == .fade (.busGain b))
      ∧ (e.kind = s.mix.buses[b].entry.kind → (s.applyEntry (.bus b e)).mix.buses[b] = { s.mix.buses[b] with
          entry := e, limiterGain := if e.limiter then s.mix.buses[b].limiterGain else 4194304 })
      ∧ (e.kind ≠ s.mix.buses[b].entry.kind →
          (s.applyEntry (.bus b e)).mix.buses[b].muteEnd
            = (if e.kind = .unused ∨ s.mix.buses[b].entry.kind = .unused then 0 else s.mix.buses[b].muteEnd)
          ∧ (e.kind = .foldback ∨ s.mix.buses[b].entry.kind = .foldback →
            (s.applyEntry (.bus b e)).mix.buses[b].limiterGain = 4194304
            ∧ (s.applyEntry (.bus b e)).mix.buses[b].duckEnd = 4194304
            ∧ (s.applyEntry (.bus b e)).mix.buses[b].duckState = .idle))
      ∧ ∀ c : Fin 32, c ≠ b → (s.applyEntry (.bus b e)).mix.buses[c] = s.mix.buses[c])
    ∧ (∀ o e, (s.applyEntry (.output o e)).mix.outputs[o] = e
      ∧ (∀ q : Fin 40, q ≠ o → (s.applyEntry (.output o e)).mix.outputs[q] = s.mix.outputs[q])
      ∧ s.applyEntry (.output o e)
        = { s with mix := { s.mix with outputs := (s.applyEntry (.output o e)).mix.outputs } })
    ∧ (∀ g e, (s.applyEntry (.talk g e)).mix.talk[g] = { s.mix.talk[g] with entry := e }
      ∧ (∀ h : Fin 4, h ≠ g → (s.applyEntry (.talk g e)).mix.talk[h] = s.mix.talk[h])
      ∧ s.applyEntry (.talk g e) = { s with mix := { s.mix with talk := (s.applyEntry (.talk g e)).mix.talk } })
    ∧ (∀ e, s.applyEntry (.node e) = { s with msg := { s.msg with node := e } })
    ∧ (∀ i e side, s.msg.accepted = [.select i side, .write false (.input i e)] →
      e.source ≠ s.inputs[i].entry.source → (runItem .writes s).msg.accepted = []
        ∧ (runItem .writes s).inputs[i].entry = e ∧ (runItem .writes s).inputs[i].forced = false
        ∧ (runItem .writes s).inputs[i].active = .primary)
    ∧ (∀ i e, s.msg.accepted = [.write false (.input i e), .select i .spare] → e.spare ≠ none →
      (runItem .writes s).msg.accepted = [] ∧ (runItem .writes s).inputs[i].entry = e
        ∧ (runItem .writes s).inputs[i].forced = true ∧ (runItem .writes s).inputs[i].state = .spare)
    ∧ (∀ z e, (s.applyEntry (.zone z e)).relay.zones[z].entry = e
      ∧ (s.applyEntry (.zone z e)).fadeOf (.zoneLevel z) = none
      ∧ s.itemsClosed (s.applyEntry (.zone z e)) (fun _ x => x == .fade (.zoneLevel z))
      ∧ ∀ y : Fin 16, y ≠ z → (s.applyEntry (.zone z e)).relay.zones[y] = s.relay.zones[y])
    ∧ (∀ v c, (s.applyEntry (.voice v c)).clip.voices[v].gain = c
      ∧ (s.applyEntry (.voice v c)).fadeOf (.voiceGain v) = none
      ∧ s.itemsClosed (s.applyEntry (.voice v c)) (fun _ x => x == .fade (.voiceGain v))
      ∧ ∀ u : Fin 8, u ≠ v → (s.applyEntry (.voice v c)).clip.voices[u] = s.clip.voices[u])
    ∧ (∀ i e, (s.applyEntry (.input i e)).inputs[i].entry = e
      ∧ (e.source = s.inputs[i].entry.source → e.spare = s.inputs[i].entry.spare →
          (s.applyEntry (.input i e)).inputs[i] = { s.inputs[i] with entry := e })
      ∧ (e.source ≠ s.inputs[i].entry.source ∨ e.spare ≠ s.inputs[i].entry.spare →
          (s.applyEntry (.input i e)).inputs[i] = { s.inputs[i] with
            entry := e, state := if e.source = none then .idle else .primary, active := .primary, forced := false
            invalidRun := 0, primaryRun := 0, spareRun := 0 })
      ∧ ∀ j : Fin 64, j ≠ i → (s.applyEntry (.input i e)).inputs[j] = s.inputs[j])

/-- A TABLE READ sent to the node changes nothing but the reply it leaves: table, place, and the leading items that fit. A METER read
returns as many peaks as were asked for, as the table has from the first on, and as fit in the reply, which is 91, those of inputs 0
to 63 as entries 0 to 63 and those of buses 0 to 31 as entries 64 to 95; each peak returned becomes 0, every other is kept, and
nothing else changes. A read whose place lies beyond its table, or whose window does not fit, is refused with
RANGE. Sent to a group or to broadcast either has no effect at all (R46, R49, R175, R178, R179, R181). That the item of a bus carries
its set code during a fade is the model's choice between R61 and R53 (log entry 38). -/
def Obligations.TableReadReplies : Prop :=
  ∀ (o : Origin) (s : State), s.between → s.hears o →
    (∀ tag (table : U8) n (first count : U8), o = .addressed tag → tableSize table.toNat = some n → first.toNat < n →
      exec (.tableRead o table (.range first count)) s = .next (s.replied o
        { code := .ok
          data := [table, first, count] ++ counted 276 ((rangeOf n first count).map (readItem s table.toNat)) }))
    ∧ (∀ tag window cells, o = .addressed tag → checkWindow window = some cells →
      exec (.tableRead o 2 (.window window)) s = .next (s.replied o
        { code := .ok
          data := [2, window.inputFirst, window.inputLast, window.busFirst, window.busLast]
            ++ counted 274 (cells.map (crosspointItem s)) }))
    ∧ (∀ tag (table : U8) n (first count : U8), o = .addressed tag → tableSize table.toNat = some n → n ≤ first.toNat →
      exec (.tableRead o table (.range first count)) s = .next (s.replied o { code := .range }))
    ∧ (∀ tag window, o = .addressed tag → checkWindow window = none →
      exec (.tableRead o 2 (.window window)) s = .next (s.replied o { code := .range }))
    ∧ (∀ tag first count, o = .addressed tag → 95 < first.toNat →
      exec (.meterRead o first count) s = .next (s.replied o { code := .range }))
    ∧ (∀ table place, (∀ tag, o ≠ .addressed tag) → exec (.tableRead o table place) s = .next s)
    ∧ (∀ tag first count, o = .addressed tag → first.toNat < 96 →
      let k := min count.toNat (min (96 - first.toNat) 91)
      let returned (n : Nat) : Prop := first.toNat ≤ n ∧ n < first.toNat + k
      ∃ (t : State) (peak : Nat → Nat), exec (.meterRead o first count) s = .next (t.replied o
          { code := .ok, data := [9, first, count] ++ bytes2 k ++ (List.range' first.toNat k).flatMap fun n => bytes3 (peak n) })
        ∧ (∀ i : Fin 64, peak i.val = s.inputs[i].meter
          ∧ (returned i.val → t.inputs[i] = { s.inputs[i] with meter := 0 })
          ∧ (¬ returned i.val → t.inputs[i] = s.inputs[i]))
        ∧ (∀ b : Fin 32, peak (64 + b.val) = s.mix.buses[b].meter
          ∧ (returned (64 + b.val) → t.mix.buses[b] = { s.mix.buses[b] with meter := 0 })
          ∧ (¬ returned (64 + b.val) → t.mix.buses[b] = s.mix.buses[b]))
        ∧ t = { s with inputs := t.inputs, mix := { s.mix with buses := t.mix.buses } })
    ∧ (∀ first count, (∀ tag, o ≠ .addressed tag) → exec (.meterRead o first count) s = .next s)

/-! ### The staged hold -/

/-- HOLD ON opens a closed hold with an empty store and leaves an open one as it is; APPLY hands the store on as the apply
set; DISCARD empties it; both close an open hold and are refused on a closed one. At each boundary an open hold counts 1 more, and at
the boundary at which the age reaches its limit the store is emptied, the hold closes and HOLD_TIMEOUT is posted with the number
discarded; a closed hold does not count (R182, R183). The two-byte counts of the replies and the event are the model's choice (log
entry 10), and so is the age 0 of a hold that has closed, by APPLY, DISCARD or the timeout (log entry 36). -/
def Obligations.HoldMessages : Prop :=
  (∀ s : State,
    (s.msg.holdOpen = false → runItem .hold s = s)
    ∧ (s.msg.holdOpen = true → s.msg.holdAge + 1 < s.msg.node.holdLimit →
      runItem .hold s = s.onMsg fun m => { m with holdAge := m.holdAge + 1 }))
  ∧ ∀ (o : Origin) (s : State),
    (s.between → s.hears o → s.msg.holdOpen = false →
      exec (.holdOn o) s = .next
        ((s.onMsg fun m => { m with holdOpen := true, holdAge := 0, staged := [] }).replied o
          { code := .ok, data := bytes2 0 })
      ∧ exec (.holdApply o) s = .next (s.replied o { code := .notFound })
      ∧ exec (.holdDiscard o) s = .next (s.replied o { code := .notFound }))
    ∧ (s.between → s.hears o → s.msg.holdOpen = true →
      exec (.holdOn o) s = .next (s.replied o { code := .ok, data := bytes2 s.msg.staged.length })
      ∧ exec (.holdApply o) s = .next
        ((s.onMsg fun m => { m with
          holdOpen := false, holdAge := 0, staged := []
          accepted := m.accepted ++ m.staged.map (.write true) }).replied o
          { code := .ok, data := bytes2 s.msg.staged.length })
      ∧ exec (.holdDiscard o) s = .next
        ((s.onMsg fun m => { m with holdOpen := false, holdAge := 0, staged := [] }).replied o
          { code := .ok, data := bytes2 s.msg.staged.length }))
    ∧ (s.atItem .hold → s.msg.holdOpen = true → s.msg.node.holdLimit ≤ s.msg.holdAge + 1 →
      exec .holdTimeout s = .next
        (((s.without .hold).onMsg fun m => { m with holdOpen := false, holdAge := 0, staged := [] }).post
          { kind := .holdTimeout, subject := .none, detail := bytes2 s.msg.staged.length }))

/-! ### The cue engine -/

/-- CUE STORE puts a checked record into its place in number order, whole in the place of one of the same number, unless the
list would pass 512 cues or 4,096 actions; its reply carries the counts (R81 to R83). The two-byte counts of the reply are the
model's choice (log entry 10). -/
def Obligations.CueStorePlacesRecord : Prop :=
  ∀ (o : Origin) (raw : RawCue) (s : State), s.between → s.hears o →
    (checkCue raw = none → exec (.cueStore o raw) s = .next (s.replied o { code := .range }))
    ∧ ∀ c, checkCue raw = some c →
      let cues := s.cue.cues.filter (fun d => decide (d.number < c.number)) ++ [c]
        ++ s.cue.cues.filter (fun d => decide (c.number < d.number))
      let actions := (cues.map fun d => d.actions.length).sum
      (512 < cues.length ∨ 4096 < actions → exec (.cueStore o raw) s = .next (s.replied o { code := .noSpace }))
      ∧ (cues.length ≤ 512 → actions ≤ 4096 →
        exec (.cueStore o raw) s = .next ((s.onCue fun e => { e with cues := cues }).replied o
          { code := .ok, data := bytes2 cues.length ++ bytes2 actions }))

/-- CUE REMOVE deletes the record of its number, moves a standby on it to the next cue above, leaves fades and follow as they
are, and is refused with NOT_FOUND when there is no such cue (R84). CUE READ returns the record of its number, or with NEXT of the
next cue above, as stored, and changes nothing; a number above 9999.9 is out of range (R85). The two-byte counts of the reply are
the model's choice (log entry 10), and the layout of the record is that of CUE STORE, as the model infers (log entry 22). -/
def Obligations.CuesRemovedAndRead : Prop :=
  (∀ (o : Origin) (number : U32) (s : State), s.between → s.hears o →
    ((∀ c ∈ s.cue.cues, c.number ≠ number.toNat) →
      exec (.cueRemove o number) s = .next (s.replied o { code := .notFound }))
    ∧ ((∃ c ∈ s.cue.cues, c.number = number.toNat) →
      let cues := s.cue.cues.filter fun c => c.number != number.toNat
      let standby := if s.cue.standby = some number.toNat
        then (s.cue.cues.find? fun c => decide (number.toNat < c.number)).map Cue.number else s.cue.standby
      exec (.cueRemove o number) s = .next ((s.onCue fun e => { e with cues := cues, standby := standby }).replied o
        { code := .ok
          data := bytes4 (standby.getD 0xFFFFFFFF) ++ bytes2 cues.length
            ++ bytes2 ((cues.map fun c => c.actions.length).sum) })))
  ∧ ∀ (tag : U8) (number : U32) (s : State), s.between → s.hears (.addressed tag) →
    (99999 < number.toNat → ∀ mode,
      exec (.cueRead (.addressed tag) number mode) s = .next (s.replied (.addressed tag) { code := .range }))
    ∧ (number.toNat ≤ 99999 →
      (exec (.cueRead (.addressed tag) number 0) s = .next (s.replied (.addressed tag)
        (match s.cue.cues.find? fun c => c.number == number.toNat with
          | some c => { code := .ok, data := c.bytes }
          | none => { code := .notFound })))
      ∧ (exec (.cueRead (.addressed tag) number 1) s = .next (s.replied (.addressed tag)
        (match s.cue.cues.find? fun c => decide (number.toNat < c.number) with
          | some c => { code := .ok, data := c.bytes }
          | none => { code := .notFound }))))

/-- A GO waits for the boundary at which the cue engine takes its requests. Taken there with HELD CLEAR and past the guard, it fires
its cue, or the standby when it names none: the actions are performed in order, the last firing and last cue are set, the standby
is the next cue above, the follow is set up, CUE_FIRED is posted and the reply carries both numbers. It is refused, in this order,
for a number above 99,999, for HELD, for a cue that is not there or no standby, and for the guard, with GO_REFUSED or GO_UNKNOWN as
the rule says. A press of the GO line that the boundary has taken is such a GO without a number and without a reply: it fires the
standby, or posts GO_REFUSED with LINE and the reason; at a boundary without a press nothing happens (R87 to R90, R93, R98, R99,
R190). CUE_FIRED carries its cause and the number of actions skipped (R93). What a follow that counts its items holds as its
remaining wait is the model's choice (log entry 32), and so is the one-byte count of skipped actions (log entry 10). -/
def Obligations.GoFires : Prop :=
  (∀ s : State,
    (s.ports.goPressed = false → runItem .goLine s = s)
    ∧ (s.ports.goPressed = true →
      let p := s.onPorts fun q => { q with goPressed := false }
      let refused (reason : U8) : Prop :=
        runItem .goLine s = p.post { kind := .goRefused, subject := .none, detail := [2, reason] }
      (s.cue.held = true → refused 0)
      ∧ (s.cue.held = false → s.standbyCue = none → refused 1)
      ∧ ∀ c, s.cue.held = false → s.standbyCue = some c →
        (∀ f, s.cue.lastFiring = some f → s.boundaries - f < s.msg.node.guard → refused 2)
        ∧ ((∀ f, s.cue.lastFiring = some f → s.msg.node.guard ≤ s.boundaries - f) → p.fired (runItem .goLine s) c 3)))
  ∧ ∀ (o : Origin) (number : U32) (s : State), s.hears o →
    (s.between → exec (.go o number) s = .next { s with
      msg := { s.msg.placed o with
        waiting := s.msg.waiting ++ [{ origin := o, place := s.msg.placeOf o, request := .go number }] } })
    ∧ (s.atItem .requests → s.msg.waiting = [] →
      let refused (code : ResultCode) (reason : U8) : State := (match o with
        | .addressed _ => s
        | .group _ => s.post { kind := .goRefused, subject := .none, detail := [0, reason] }
        | .broadcast => s.post { kind := .goRefused, subject := .none, detail := [1, reason] }).replied o { code := code }
      (number ≠ 0xFFFFFFFF → 99999 < number.toNat → exec (.go o number) s = .next (refused .range 3))
      ∧ (number = 0xFFFFFFFF ∨ number.toNat ≤ 99999 → s.cue.held = true →
        exec (.go o number) s = .next (refused .held 0))
      ∧ (number.toNat ≤ 99999 → s.cue.held = false → findCue s.cue.cues number.toNat = none →
        exec (.go o number) s = .next ((s.post
          { kind := .goUnknown, subject := .cue number.toNat, detail := [] }).replied o { code := .notFound }))
      ∧ (number = 0xFFFFFFFF → s.cue.held = false → s.standbyCue = none →
        exec (.go o number) s = .next (refused .notFound 1))
      ∧ ∀ (c : Cue) (f : Nat), s.cue.held = false → (number = 0xFFFFFFFF → s.standbyCue = some c) →
        (number ≠ 0xFFFFFFFF → number.toNat ≤ 99999 ∧ findCue s.cue.cues number.toNat = some c) →
        s.cue.lastFiring = some f → s.boundaries - f < s.msg.node.guard →
        exec (.go o number) s = .next (refused .guard 2))
    ∧ ∀ c : Cue, s.atItem .requests → s.msg.waiting = [] → s.cue.held = false →
      (number = 0xFFFFFFFF → s.standbyCue = some c) →
      (number ≠ 0xFFFFFFFF → number.toNat ≤ 99999 ∧ findCue s.cue.cues number.toNat = some c) →
      (∀ f, s.cue.lastFiring = some f → s.msg.node.guard ≤ s.boundaries - f) →
      ∃ t, exec (.go o number) s = .next t
        ∧ (s.onMsg fun m => m.placed o).fired t c (match o with | .addressed _ => 0 | .group _ => 1 | .broadcast => 2)
        ∧ ∀ tag, o = .addressed tag → ∃ r ∈ t.msg.replies, r.place = s.msg.nextPlace ∧ r.tag = tag
          ∧ r.body = some ([0] ++ bytes4 c.number ++ bytes4 (t.cue.standby.getD 0xFFFFFFFF))

/-- STANDBY, HALT and RESUME wait for the boundary; taken there, STANDBY sets the standby, HALT sets HELD with CUE_HELD when it was
CLEAR, and RESUME clears HELD, lets every PAUSED voice go on and posts CUE_RESUMED, unless a show-stop call is on air; a RESUME with
HELD CLEAR is accepted and changes nothing. At the boundaries at which HELD is SET after every request, every cue voice that is
PLAYING, or STOPPING with a STOP fade, is PAUSED, no other voice changes, and the frame takes the transport factor of a PAUSED voice
to 0 (R87, R91, R107, R109, R127, R128). -/
def Obligations.StandbyHaltResume : Prop :=
  (∀ s : State,
    (s.cue.held = false → runItem .transport s = s)
    ∧ (s.cue.held = true → ∃ voices, runItem .transport s = s.onClip (fun c => { c with voices := voices })
        ∧ ∀ v : Fin 8, voices[v] =
          if v.val < 8 - s.clip.reserve ∧ (s.clip.voices[v].state = .playing
              ∨ (s.clip.voices[v].state = .stopping ∧ s.clip.voices[v].ending = .stopFade))
          then { s.clip.voices[v] with state := .paused } else s.clip.voices[v])
    ∧ ∀ v : Fin 8, s.clip.voices[v].state = .paused →
        (s.voiceAfter v).factorEnd = 0 ∧ (s.voiceAfter v).state = .paused
        ∧ (s.clip.voices[v].factorEnd = 0 → (s.voiceAfter v).position = s.clip.voices[v].position
          ∧ (s.voiceAfter v).ranOut = s.clip.voices[v].ranOut))
  ∧ ∀ (o : Origin) (s : State), s.hears o →
    (s.between →
      let waits (r : Request) : State := { s with
        msg := { s.msg.placed o with
          waiting := s.msg.waiting ++ [{ origin := o, place := s.msg.placeOf o, request := r }] } }
      exec (.halt o) s = .next (waits .halt) ∧ exec (.resume o) s = .next (waits .resume)
        ∧ ∀ number, exec (.standby o number) s = .next (waits (.standby number)))
    ∧ (s.atItem .requests → s.msg.waiting = [] → ∀ (number : U32) (c : Cue), number.toNat ≤ 99999 →
      findCue s.cue.cues number.toNat = some c →
      exec (.standby o number) s = .next ((s.onCue fun e => { e with standby := some c.number }).replied o
        { code := .ok, data := bytes4 c.number }))
    ∧ (s.atItem .requests → s.msg.waiting = [] → exec (.halt o) s = .next
      ((if s.cue.held then s else (s.onCue fun e => { e with held := true }).post
        { kind := .cueHeld, subject := .none, detail := [0] }).replied o { code := .ok }))
    ∧ (s.atItem .requests → s.msg.waiting = [] → s.stopIsOnAir = true →
      exec (.resume o) s = .next (s.replied o { code := .heldByStop }))
    ∧ (s.atItem .requests → s.msg.waiting = [] → s.stopIsOnAir = false → s.cue.held = false →
      exec (.resume o) s = .next (s.replied o { code := .ok }))
    ∧ (s.atItem .requests → s.msg.waiting = [] → s.stopIsOnAir = false → s.cue.held = true →
      ∃ t, exec (.resume o) s = .next (t.replied o { code := .ok })
        ∧ t = ((s.onCue fun e => { e with held := false }).onClip fun c => { c with voices := t.clip.voices }).post
            { kind := .cueResumed, subject := .none, detail := [] }
        ∧ ∀ v : Fin 8, t.clip.voices[v] = if s.clip.voices[v].state = .paused
            then { s.clip.voices[v] with
              state := if s.clip.voices[v].ending = .stopFade then .stopping else .playing }
            else s.clip.voices[v])

/-- A message that its owner takes at a boundary takes its place and waits when it comes between boundaries, and comes after those
that already wait there (R87, R124, R138, R140, R141, R187). That a message that comes at its item is taken there and then,
and so does what it does once those that wait have been taken, is the model's choice (log entry 6); so is the order of several
RESETs of one mode, that in which they completed (log entry 14). A RESET with a mode that is neither WARM nor SHOW waits for the
boundary too, where it is refused with RANGE and makes no reset (R175, R176, R187; log entry 19). -/
def Obligations.WaitingTakenFirst : Prop :=
  ∀ (o : Origin) (s : State),
    (s.between → s.hears o →
      let waits (r : Request) : Answer := .next { s with
        msg := { s.msg.placed o with
          waiting := s.msg.waiting ++ [{ origin := o, place := s.msg.placeOf o, request := r }] } }
      let awaitsPass (cancel : Bool) (id : U16) : Answer := .next { s with
        msg := s.msg.placed o
        relay := { s.relay with
          requests := s.relay.requests ++ [{ cancel := cancel, id := id.toNat, place := s.msg.placeOf o }] } }
      let awaitsReset (mode : U8) : Answer := .next { s with
        msg := { s.msg.placed o with
          resets := s.msg.resets ++ [{ origin := o, place := s.msg.placeOf o, request := .reset mode }] } }
      (∀ voice clip gain loop, exec (.voicePlay o voice clip gain loop) s = waits (.voicePlay voice clip gain loop))
      ∧ (∀ voice frames, exec (.voiceStop o voice frames) s = waits (.voiceStop voice frames))
      ∧ (∀ id, exec (.callEnd o id) s = awaitsPass false id ∧ exec (.callCancel o id) s = awaitsPass true id)
      ∧ exec (.resetWarm o) s = awaitsReset 0 ∧ exec (.showReset o) s = awaitsReset 1)
    ∧ (s.atItem .requests →
      (∀ number, exec (.go o number) s = exec (.go o number) s.takeRequests
        ∧ exec (.standby o number) s = exec (.standby o number) s.takeRequests)
      ∧ exec (.halt o) s = exec (.halt o) s.takeRequests ∧ exec (.resume o) s = exec (.resume o) s.takeRequests
      ∧ (∀ voice clip gain loop, exec (.voicePlay o voice clip gain loop) s
          = exec (.voicePlay o voice clip gain loop) s.takeRequests)
      ∧ (∀ voice frames, exec (.voiceStop o voice frames) s = exec (.voiceStop o voice frames) s.takeRequests)
      ∧ s.takeRequests.msg.waiting = [])
    ∧ (s.atItem .relayRequests → s.relayRequests.relay.requests = []
      ∧ ∀ id, exec (.callEnd o id) s = exec (.callEnd o id) s.relayRequests
        ∧ exec (.callCancel o id) s = exec (.callCancel o id) s.relayRequests)
    ∧ (s.atItem .warmReset → exec (.resetWarm o) s = exec (.resetWarm o) s.warmResets)
    ∧ (s.atItem .showReset → exec (.showReset o) s = exec (.showReset o) s.showResets)
    ∧ ∀ (mode : U8) (place : Option Nat), 2 ≤ mode.toNat →
      let bad : Waiting := { origin := o, place := place, request := .reset mode }
      (s.msg.completed = some { origin := o, place := place, body := [24, mode] } →
        runItem .execute s = s.show.onMsg fun m => { m with completed := none, waiting := m.waiting ++ [bad] })
      ∧ (s.msg.waiting = [bad] →
        runItem .requests s = (s.onMsg fun m => { m with waiting := [] }).answer place { code := .range })

/-- The actions of a cue are performed in list order, each on the state its predecessors left, and one that is skipped changes
nothing but the ACTION_SKIPPED it posts. A PLAY, a STOP, a ROUTE and a CALL are performed or skipped by the tests of R95 and R96. A
MOVE gives its target the end code at once: with 0 frames no fade is left; a target with a fade record has it taken over in its
place from its last value, in the new shape; one with none gets a record from its set code, or, with 256 records in the table, moves
at once with FADE_TABLE_FULL; no other target moves; and of the follow's open items the target's closes, when a fade of another firing
is taken over or removed (R93 to R97, R99, R102 to R104). The width of the position is the model's choice
(log entry 10). Of a MOVE on a call voice in force while a lower reserve is pending, R94 and R126 say different things, and the free
constant of log entry 16 says which holds. -/
def Obligations.ActionsOfACue : Prop :=
  ∀ (s : State) (cue serial position : Nat) (rest : List Action),
    State.performAll cue serial position [] s = (s, 0)
    ∧ (∀ a u, s.perform cue serial a = .ok u →
      State.performAll cue serial position (a :: rest) s = State.performAll cue serial (position + 1) rest u)
    ∧ (∀ a r, s.perform cue serial a = .error r →
      let after := State.performAll cue serial (position + 1) rest (s.post
        { kind := .actionSkipped, subject := .cue cue, detail := byte position ++ byte a.kindByte ++ byte r.ctorIdx })
      State.performAll cue serial position (a :: rest) s = (after.1, after.2 + 1))
    ∧ (∀ (v : Fin 8) clip gain loop, let low := 8 - max s.clip.reserve s.msg.node.reserve
      (low ≤ v.val → s.perform cue serial (.play v clip gain loop) = .error .voiceReserved)
      ∧ (v.val < low → s.storedClip clip = none → s.perform cue serial (.play v clip gain loop) = .error .clipMissing)
      ∧ (v.val < low → s.storedClip clip ≠ none → s.perform cue serial (.play v clip gain loop)
          = .ok (s.playVoice v { clip := clip, loop := loop, owner := .cue cue, serial := serial } gain)))
    ∧ (∀ (v : Fin 8) frames, s.perform cue serial (.stop v frames)
        = if v.val < 8 - s.clip.reserve then .ok (s.stopVoice v frames (some cue) serial) else .error .voiceReserved)
    ∧ (∀ i a b, s.perform cue serial (.route i a b)
        = if (b = none ∨ (a ≠ none ∧ a ≠ b)) then .ok (s.route i a b) else .error .range)
    ∧ (∀ zones priority clip ack repeats, let c := cueCall zones priority clip ack repeats
      (s.callRefusal c = none → s.perform cue serial (.call zones priority clip ack repeats) = .ok (s.acceptCall c))
      ∧ ∀ code, s.callRefusal c = some code →
        s.perform cue serial (.call zones priority clip ack repeats) = .error (skipReasonOf code))
    ∧ (∀ (v : Fin 8) code frames sh,
      8 - s.msg.node.reserve ≤ v.val ∨ (Config.callVoiceSkips = true ∧ 8 - s.clip.reserve ≤ v.val) →
      s.perform cue serial (.move (.voiceGain v) code frames sh) = .error .voiceReserved)
    ∧ ∀ target code frames sh,
      (∀ v : Fin 8, target = .voiceGain v → v.val < 8 - s.msg.node.reserve
        ∧ (Config.callVoiceSkips = true → v.val < 8 - s.clip.reserve)) →
      ∃ u, s.perform cue serial (.move target code frames sh) = .ok u
        ∧ u.setCode target = code ∧ (∀ w, w ≠ target → u.setCode w = s.setCode w ∧ u.fadeOf w = s.fadeOf w)
        ∧ u.inputs = s.inputs ∧ u.relay.calls = s.relay.calls ∧ u.clip.clips = s.clip.clips ∧ u.link = s.link
        ∧ u.ports = s.ports ∧ u.cue.cues = s.cue.cues ∧ u.cue.held = s.cue.held
        ∧ s.itemsClosed u (fun _ x => x == .fade target
            && (frames == 0 || (s.fadeOf target).any (fun old => old.serial != serial)))
        ∧ (frames = 0 → u.fadeOf target = none ∧ u.msg = s.msg)
        ∧ (∀ old, frames ≠ 0 → s.fadeOf target = some old →
          u.cue.fades.length = s.cue.fades.length ∧ u.msg = s.msg
          ∧ u.fadeOf target = some
            { target := target, start := if sh = .linear then .linear old.lastGain else .level old.lastCode
              endCode := code, frames := frames, elapsed := 0, owner := some cue, serial := serial })
        ∧ (frames ≠ 0 → s.fadeOf target = none → s.cue.fades.length < 256 →
          u.cue.fades.length = s.cue.fades.length + 1 ∧ u.msg = s.msg
          ∧ u.fadeOf target = some
            { target := target
              start := if sh = .linear then .linear (lin (s.setCode target)) else .level (s.setCode target)
              endCode := code, frames := frames, elapsed := 0, owner := some cue, serial := serial })
        ∧ (frames ≠ 0 → s.fadeOf target = none → 256 ≤ s.cue.fades.length →
          u.fadeOf target = none ∧ u.cue = s.cue ∧ u.msg = (s.post
            { kind := .fadeTableFull, subject := .cue cue, detail := targetBytes target }).msg)

/-- A fade that has computed its last frame completes: its record is gone, its target rests at the end code, every other target
keeps its code and its fade, and a STOP fade ends its voice; of the follow's open items the target's closes, and with a STOP fade
that of the voice whose playback of the follow's firing it ends (R99, R105, R122). Until then a frame for which HELD is CLEAR carries the
fade's value at its elapsed count and then counts 1, and a frame for which HELD is SET carries the last value computed, or the start
value when none has been, at every sample and leaves the count as it is; the frame changes nothing else of the cue engine (R105,
law L7). -/
def Obligations.FadeCompletes : Prop :=
  (∀ s : State,
    (s.cue.held = true → s.closeFrame.cue = s.cue)
    ∧ (s.cue.held = false → s.closeFrame.cue = { s.cue with
        fades := s.cue.fades.map fun f => if f.elapsed < f.frames then { f with elapsed := f.elapsed + 1 } else f })
    ∧ ∀ target f n, s.fadeOf target = some f →
      (s.cue.held = false → f.elapsed < f.frames → s.liveGain target n = f.gainAt f.elapsed n)
      ∧ (s.cue.held = true → f.elapsed = 0 → s.liveGain target n = match f.start with | .linear a => a | .level c => lin c)
      ∧ ∀ k, s.cue.held = true → f.elapsed = k + 1 → s.liveGain target n = f.gainAt k 47)
  ∧ ∀ (target : Target) (f : Fade) (s : State), s.atItem .completions → s.fadeOf target = some f → f.frames ≤ f.elapsed →
    (∀ v, target = .voiceGain v → s.clip.voices[v].ending = .stopFade → s.clip.voices[v].pending = none) →
    ∃ t, exec (.fadeComplete target) s = .next t ∧ t.fadeOf target = none ∧ t.setCode target = f.endCode
      ∧ (∀ u, u ≠ target → t.fadeOf u = s.fadeOf u ∧ t.setCode u = s.setCode u)
      ∧ (∀ v, target = .voiceGain v → s.clip.voices[v].ending = .stopFade → t.clip.voices[v].state = .idle
          ∧ t.clip.voices[v].playback = none)
      ∧ s.itemsClosed t (fun fl x => x == .fade target || match target with
        | .voiceGain v => s.clip.voices[v].ending == .stopFade && s.clip.voices[v].endCloses v fl x
        | _ => false)
      ∧ t.cue.cues = s.cue.cues ∧ t.cue.standby = s.cue.standby ∧ t.cue.held = s.cue.held
      ∧ t.inputs = s.inputs ∧ t.msg = s.msg ∧ t.link = s.link ∧ t.ports = s.ports ∧ t.due = s.due

/-- The follow: COUNTING with no item left it starts its timer at its wait; a timer that reaches 0 removes the follow and fires the
standby, whatever the guard says, and with no standby GO_REFUSED is posted; at every other boundary after the one that set it a
timer above 1 steps down by 1 and nothing else changes, and under HELD, or before, it stands still (R93, R98, R99). An item that
closes leaves the list, as the statements on what closes it say, and the follow goes on. What a follow that counts its items holds as
its remaining wait is the model's choice (log entry 32), and so is the one-byte count of skipped actions in CUE_FIRED (log entry
10). -/
def Obligations.FollowTimer : Prop :=
  ∀ (f : Follow) (s : State), s.cue.follow = some f →
    (s.atItem .followTiming → f.timing = false → f.items = [] →
      exec .followTimingStart s = .next (s.onCue fun e => { e with
        follow := some { f with timing := true, remaining := f.wait, since := s.boundaries } }))
    ∧ (f.timing = true → f.since < s.boundaries → s.cue.held = false → 1 < f.remaining →
      runItem .follow s = s.onCue fun e => { e with follow := some { f with remaining := f.remaining - 1 } })
    ∧ (f.timing = false ∨ s.boundaries ≤ f.since ∨ s.cue.held = true → runItem .follow s = s)
    ∧ (s.atItem .follow → s.cue.held = false → f.timing = true → f.since < s.boundaries → f.remaining ≤ 1 →
      s.cue.standby = none →
      exec .followExpiry s = .next (((s.without .follow).onCue fun e => { e with follow := none }).post
        { kind := .goRefused, subject := .none, detail := [3, 1] }))
    ∧ (∀ c, s.atItem .follow → s.cue.held = false → f.timing = true → f.since < s.boundaries → f.remaining ≤ 1 →
      s.standbyCue = some c →
      ∃ t, exec .followExpiry s = .next t ∧ (s.without .follow).fired t c 4)

/-! ### The clip player -/

/-- The three ends of a playback: a cut-out after its four frames or at the end of its clip, a clip that has run out, and the
one-frame cut of a call, whose end is reported as CUT. The end of a playback closes the voice's item of the follow of its firing,
and the record of a fade that goes with it closes its own (R99, R119, R121, R126). That a pending start begins PLAYING or PAUSED by HELD as it
stands before the boundary's requests is the model's choice (log entry 29), and so are the position 0 and the last transport factor
of a voice that becomes IDLE (log entry 10). -/
def Obligations.PlaybacksEnd : Prop :=
  ∀ (v : Fin 8) (s : State), s.atItem .ends → s.clip.voices[v].state ≠ .idle →
    (s.clip.voices[v].ending = .cutOut → 4 ≤ s.clip.voices[v].cutElapsed ∨ s.clip.voices[v].ranOut = true →
      ∃ t, exec (.cutOutEnd v) s = .next t ∧ s.voiceEnded t v .ended)
    ∧ (s.clip.voices[v].ending = .none ∨ s.clip.voices[v].ending = .stopFade → s.clip.voices[v].ranOut = true →
      ∃ t, exec (.playbackEnd v) s = .next t ∧ s.voiceEnded t v .ended)
    ∧ (s.clip.voices[v].ending = .callCut →
      ∃ t, exec (.callStopEnd v) s = .next t ∧ s.voiceEnded t v .cut)

/-- The reserve in force becomes the setting at a boundary at which every voice between the two is IDLE with nothing pending
(R125). -/
def Obligations.ReserveChanges : Prop :=
  ∀ s : State, s.atItem .reserve → s.clip.reserve ≠ s.msg.node.reserve →
    (∀ v : Fin 8, 8 - max s.clip.reserve s.msg.node.reserve ≤ v.val →
      v.val < 8 - min s.clip.reserve s.msg.node.reserve →
      s.clip.voices[v].state = .idle ∧ s.clip.voices[v].pending = none) →
    exec .reserveChange s = .next ((s.without .reserve).onClip fun c => { c with reserve := s.msg.node.reserve })

/-- CAPTURE is checked in the order range of clip id and source, a capture in progress, an id in use, room; accepted, it reserves its whole length and is
ARMED (R114). A RUNNING capture whose stored count equals its length is done: its clip is STORED, the capture record is gone, and
CAPTURE_DONE is posted with the length. Any other capture at its boundary aborts with GAP when its source is invalid, and otherwise
is RUNNING and stores the first 48 samples of the frame, or as many as it still wants (R115); the report of a link loss aborts a
capture from a LINK slot with LINK and no other. An abort removes the capture and its clip and posts CAPTURE_ABORTED with the
reason and the samples stored (R116). -/
def Obligations.CapturesArmAndComplete : Prop :=
  (∀ (o : Origin) (clip : U8) (source : RawSource) (length : U32) (s : State), s.between → s.hears o →
    clip = 0 ∨ 128 < clip.toNat ∨ checkCaptureSource source = none →
    exec (.capture o clip source length) s = .next (s.replied o { code := .range }))
  ∧ (∀ (o : Origin) (clip : U8) (source : RawSource) (length : U32) (id : Nat) (src : Src) (s : State),
    s.between → s.hears o → clipId clip = some id → checkCaptureSource source = some src →
    let l := max 48 (min 4194304 length.toNat)
    let free := 4194304 - (s.clip.clips.map Clip.length).sum
    (s.clip.capture ≠ none → exec (.capture o clip source length) s = .next (s.replied o { code := .busy }))
    ∧ (s.clip.capture = none → (∃ c ∈ s.clip.clips, c.id = id) →
      exec (.capture o clip source length) s = .next (s.replied o { code := .inUse }))
    ∧ (s.clip.capture = none → (∀ c ∈ s.clip.clips, c.id ≠ id) → free < l →
      exec (.capture o clip source length) s = .next (s.replied o { code := .noSpace }))
    ∧ (s.clip.capture = none → (∀ c ∈ s.clip.clips, c.id ≠ id) → l ≤ free →
      exec (.capture o clip source length) s = .next ((s.onClip fun c => { c with
        clips := c.clips ++ [{ id := id, length := l, stored := false, samples := [] }]
        capture := some { running := false, clip := id, source := src, length := l, count := 0 } }).replied o
        { code := .ok, data := bytes4 l ++ bytes4 ((l + 47) / 48) ++ bytes4 (free - l) })))
  ∧ (∀ (c : Capture) (s : State), s.clip.capture = some c →
    let aborted (reason : U8) : State := (s.onClip fun p => { p with
      capture := none, clips := p.clips.filter fun d => d.id != c.clip }).post
        { kind := .captureAborted, subject := .clip c.clip, detail := [reason] ++ bytes4 c.count }
    (c.running = false ∨ c.count ≠ c.length →
      (s.sourceValid c.source = false → runItem .capture s = aborted 0)
      ∧ ∀ block, s.sourceValid c.source = true →
        (∀ i, c.source = .link i → block = s.link.slots[i]) → (∀ n, c.source = .localIn n → block = s.ports.localIn[n]) →
        (∀ v, c.source ≠ .voice v) →
        let k := min 48 (c.length - c.count)
        runItem .capture s = s.onClip fun p => { p with
          capture := some { c with running := true, count := c.count + k }
          clips := p.clips.map fun d => if d.id = c.clip then
            { d with samples := d.samples ++ (block.toList.map toSample).take k } else d })
    ∧ (∀ i, c.source = .link i → runItem .lossCapture s = aborted 1)
    ∧ ((∀ i, c.source ≠ .link i) → runItem .lossCapture s = s))
  ∧ ∀ (c : Capture) (s : State), s.atItem .capture → s.clip.capture = some c → c.running = true → c.count = c.length →
    exec .captureDone s = .next
      (((s.without .capture).onClip fun p => { p with
        capture := none
        clips := p.clips.map fun d => if d.id = c.clip then { d with stored := true } else d }).post
          { kind := .captureDone, subject := .clip c.clip, detail := bytes4 c.length })

/-- CAPTURE ABORT of the capture in progress discards its clip with CAPTURE_ABORTED (ASKED); CLIP REMOVE removes a STORED clip that
no voice and no call uses; each is refused with NOT_FOUND when it finds nothing (R116 to R118). -/
def Obligations.ClipsDiscarded : Prop :=
  ∀ (o : Origin) (clip : U8) (id : Nat) (s : State), s.between → s.hears o → clipId clip = some id →
    (∀ c, s.clip.capture = some c → c.clip = id →
      exec (.captureAbort o clip) s = .next (((s.onClip fun p => { p with
        capture := none, clips := p.clips.filter fun d => d.id != id }).post
          { kind := .captureAborted, subject := .clip id, detail := [2] ++ bytes4 c.count }).replied o
        { code := .ok, data := bytes4 c.count }))
    ∧ ((∀ c, s.clip.capture = some c → c.clip ≠ id) →
      exec (.captureAbort o clip) s = .next (s.replied o { code := .notFound }))
    ∧ ((∀ c ∈ s.clip.clips, c.id ≠ id) → exec (.clipRemove o clip) s = .next (s.replied o { code := .notFound }))
    ∧ (∀ c, s.clipRecord id = some c → c.stored = true → (∀ v : Fin 8, s.clip.voices[v].uses id = false) →
      (∀ k ∈ s.relay.calls, k.source ≠ .clip id) →
      let left := s.clip.clips.filter fun d => d.id != id
      exec (.clipRemove o clip) s = .next ((s.onClip fun p => { p with clips := left }).replied o
        { code := .ok, data := bytes4 (4194304 - (left.map Clip.length).sum) }))

/-- VOICE PLAY on an IDLE cue voice begins the clip at position 0 with the gain code given, clamped; on a busy one it starts the
4-frame cut-out at the level of the previous frame's last sample and holds the new playback pending. It is refused, in this order,
for a voice, a clip id or a loop flag out of range, a voice of the call side or changing side, HELD, and a clip that is not STORED
(R120, R121, R124). Of the follow's open items the fade of the voice's gain closes, and the voice's own when the pending start that it
replaces was of the follow's firing and nothing of that firing is left on the voice (R99). The byte 3 for STOPPING in the reply is the
model's choice (log entry 10). -/
def Obligations.VoicePlayBegins : Prop :=
  (∀ (o : Origin) (voice clip : U8) (gain : U16) (loop : U8) (s : State),
    s.atItem .requests → s.msg.waiting = [] → s.hears o →
    (7 < voice.toNat ∨ clip = 0 ∨ 128 < clip.toNat ∨ 2 ≤ loop.toNat →
      exec (.voicePlay o voice clip gain loop) s = .next (s.replied o { code := .range }))
    ∧ ∀ (v : Fin 8) (id : Nat), v.val = voice.toNat → id = clip.toNat → 1 ≤ id → id ≤ 128 → loop.toNat < 2 →
      let low := 8 - max s.clip.reserve s.msg.node.reserve
      (low ≤ v.val → exec (.voicePlay o voice clip gain loop) s = .next (s.replied o { code := .inUse }))
      ∧ (v.val < low → s.cue.held = true →
        exec (.voicePlay o voice clip gain loop) s = .next (s.replied o { code := .held }))
      ∧ (v.val < low → s.cue.held = false → (∀ c ∈ s.clip.clips, c.id = id → c.stored = false) →
        exec (.voicePlay o voice clip gain loop) s = .next (s.replied o { code := .notFound })))
  ∧ ∀ (o : Origin) (voice clip : U8) (gain : U16) (loop : Bool) (v : Fin 8) (id : Nat) (k : Clip) (s : State),
    s.atItem .requests → s.msg.waiting = [] → s.hears o → v.val = voice.toNat → clipId clip = some id → s.storedClip id = some k →
    v.val < 8 - max s.clip.reserve s.msg.node.reserve → s.cue.held = false →
    ∃ (t : State) (data : List U8), exec (.voicePlay o voice clip gain (if loop then 1 else 0)) s
        = .next (t.replied o { code := .ok, data := data })
      ∧ (s.clip.voices[v].state = .idle → data = [1] ∧ t.clip.voices[v] =
          { state := .playing, playback := some { clip := id, loop := loop, owner := .direct, serial := 0 }
            position := 0, ending := .none, pending := none, gain := clampCode gain.toNat
            gainEnd := s.clip.voices[v].gainEnd, factorEnd := 4194304, cutFrom := 4194304, cutElapsed := 0
            ranOut := false })
      ∧ (s.clip.voices[v].state ≠ .idle → data = [3] ∧ t.clip.voices[v].state = .stopping
          ∧ t.clip.voices[v].gain = inv s.clip.voices[v].gainEnd
          ∧ t.clip.voices[v].ending = .cutOut ∧ t.clip.voices[v].playback = s.clip.voices[v].playback
          ∧ t.clip.voices[v].position = s.clip.voices[v].position
          ∧ t.clip.voices[v].pending = some
            { playback := { clip := id, loop := loop, owner := .direct, serial := 0 }, gain := clampCode gain.toNat })
      ∧ t.fadeOf (.voiceGain v) = none
      ∧ s.itemsClosed t (fun f x => x == .fade (.voiceGain v)
          || (x == .voice v && s.clip.voices[v].state != .idle
            && s.clip.voices[v].pending.any (fun q => q.playback.serial == f.serial) && !t.clip.voices[v].counts f.serial))
      ∧ (∀ u : Fin 8, u ≠ v → t.clip.voices[u] = s.clip.voices[u]) ∧ t.inputs = s.inputs ∧ t.mix = s.mix
      ∧ t.relay = s.relay ∧ t.link = s.link ∧ t.due = s.due

/-- VOICE STOP of a cue voice that is PLAYING, or STOPPING with a STOP fade, gives it a LINEAR fade to code 0 over the frames asked
for, at most 600,000, and with 0 frames, or with no room in the fade table, which FADE_TABLE_FULL says, ends it at the boundary with its
gain code at 0; it ends a PAUSED voice at the boundary; it drops the pending start of a cut-out, which runs on; on an IDLE voice it
changes nothing; it is refused for a voice out of range and then for one of the call side in force (R19, R104, R122, R124). Of the
follow's open items those close whose fade it takes over or removes, whose playback it ends, and whose pending start it drops (R99).
The byte 3 for STOPPING in the reply is the model's choice (log entry 10), and that a PAUSED voice keeps its gain code when frames
are given is its inference (log entry 28). -/
def Obligations.VoiceStopFades : Prop :=
  (∀ (o : Origin) (voice : U8) (frames : U32) (s : State),
    s.atItem .requests → s.msg.waiting = [] → s.hears o →
    (7 < voice.toNat → exec (.voiceStop o voice frames) s = .next (s.replied o { code := .range }))
    ∧ ∀ v : Fin 8, v.val = voice.toNat →
      (8 - s.clip.reserve ≤ v.val → exec (.voiceStop o voice frames) s = .next (s.replied o { code := .inUse }))
      ∧ (v.val < 8 - s.clip.reserve → s.clip.voices[v].state = .idle →
        exec (.voiceStop o voice frames) s = .next (s.replied o { code := .ok, data := [0] })))
  ∧ ∀ (o : Origin) (voice : U8) (frames : U32) (v : Fin 8) (s : State),
    s.atItem .requests → s.msg.waiting = [] → s.hears o → v.val = voice.toNat → v.val < 8 - s.clip.reserve →
    let r := s.clip.voices[v]
    let kept (t : State) : Prop := (∀ u : Fin 8, u ≠ v → t.clip.voices[u] = s.clip.voices[u]) ∧ t.inputs = s.inputs ∧ t.mix = s.mix
    let ended (gain : LevelCode) (m : Msg) : Prop :=
      ∃ t : State, exec (.voiceStop o voice frames) s = .next (t.replied o { code := .ok, data := [0] })
        ∧ t.clip.voices[v].state = .idle ∧ t.clip.voices[v].playback = none ∧ t.fadeOf (.voiceGain v) = none
        ∧ t.clip.voices[v].gain = gain ∧ t.msg = m ∧ kept t
        ∧ s.itemsClosed t (fun f x => x == .fade (.voiceGain v) || (x == .voice v && r.playback.any (·.firedBy f.serial)))
    (r.state = .playing ∨ (r.state = .stopping ∧ r.ending = .stopFade) →
      (frames = 0 → ended 0 s.msg)
      ∧ (frames ≠ 0 → s.fadeRoom (.voiceGain v) = false →
        ended 0 (s.post { kind := .fadeTableFull, subject := .none, detail := targetBytes (.voiceGain v) }).msg)
      ∧ (frames ≠ 0 → s.fadeRoom (.voiceGain v) = true →
        ∃ (t : State) (f : Fade), exec (.voiceStop o voice frames) s = .next (t.replied o { code := .ok, data := [3] })
        ∧ t.clip.voices[v].state = .stopping ∧ t.clip.voices[v].ending = .stopFade ∧ t.clip.voices[v].playback = r.playback
        ∧ t.fadeOf (.voiceGain v) = some f ∧ f.start = .linear (s.lastGain (.voiceGain v)) ∧ f.endCode = 0
        ∧ f.frames = min 600000 frames.toNat ∧ f.elapsed = 0 ∧ f.owner = none ∧ t.msg = s.msg ∧ kept t
        ∧ s.itemsClosed t (fun _ x => x == .fade (.voiceGain v) && (s.fadeOf (.voiceGain v)).any (fun old => old.serial != 0))))
    ∧ (r.state = .paused → ended (if frames = 0 then 0 else r.gain) s.msg)
    ∧ (r.state = .stopping → r.ending = .cutOut →
      ∃ t : State, exec (.voiceStop o voice frames) s = .next (t.replied o { code := .ok, data := [3] })
        ∧ t.clip.voices[v] = { r with pending := none } ∧ t.cue.fades = s.cue.fades ∧ t.msg = s.msg ∧ kept t
        ∧ s.itemsClosed t (fun f x => x == .voice v && r.pending.any (fun q => q.playback.serial == f.serial)
            && !r.playback.any (·.counts f.serial)))

/-! ### The relay controller -/

/-- A call that passes its checks takes a place at the end of the queue, WAITING, with the next id, which its reply carries. The
checks fail in this order: RANGE for what no call carries, RANGE for a priority-3 clip call while no voice is set aside for calls,
NOT_FOUND for a clip that is not STORED, BUSY for a priority-3 call while there is one, and NO_SPACE for another while 16 are held. A
call that fails them changes nothing, but that a refusal without a reply posts CALL_REFUSED with the code of the refusal, whichever it
is (R136, Table 9-5). -/
def Obligations.CallPlaced : Prop :=
  ∀ (o : Origin) (raw : RawCall) (s : State), s.between → s.hears o →
    let refused (code : ResultCode) (value : U8) : Prop :=
      (∀ tag, o = .addressed tag → exec (.callPlace o raw) s = .next (s.replied o { code := code }))
      ∧ ((∀ tag, o ≠ .addressed tag) →
        exec (.callPlace o raw) s = .next (s.post { kind := .callRefused, subject := .none, detail := [value] }))
    (checkCall raw = none → refused .range 4)
    ∧ ∀ c, checkCall raw = some c →
      let missing : Prop := ∃ k, c.source = .clip k ∧ ∀ d ∈ s.clip.clips, d.id = k → d.stored = false
      let voiceless : Prop := c.priority = 3 ∧ (∃ k, c.source = .clip k) ∧ s.clip.reserve = 0
      let stopHeld : Prop := c.priority = 3 ∧ ∃ d ∈ s.relay.calls, d.priority = 3
      let full : Prop := c.priority ≠ 3 ∧ 16 ≤ (s.relay.calls.filter fun d => d.priority != 3).length
      (voiceless → refused .range 4)
      ∧ (¬ voiceless → missing → refused .notFound 7)
      ∧ (¬ voiceless → ¬ missing → stopHeld → refused .busy 5)
      ∧ (¬ voiceless → ¬ missing → full → refused .noSpace 6)
      ∧ (¬ voiceless → ¬ missing → ¬ stopHeld → ¬ full →
        exec (.callPlace o raw) s = .next ((s.onRelay fun r => { r with
          calls := r.calls ++ [s.newCall c], lastId := s.newCallId, accepted := r.accepted + 1 }).replied o
          { code := .ok, data := bytes2 s.newCallId })
        ∧ (s.newCall c).state = .waiting ∧ (s.newCall c).priority = c.priority ∧ (s.newCall c).zones = c.zones
        ∧ (s.newCall c).source = c.source ∧ (s.newCall c).passes = 0 ∧ (s.newCall c).reserved = 0
        ∧ (s.newCall c).waitCount = 0)

/-- CALL END of a live call that is WAITING removes it as CANCELLED with reason ENDED_UNAIRED, of one ON_AIR ends its on-air period,
as DONE when no acknowledgement is missing; CALL CANCEL removes any call as CANCELLED with reason ASKED; its zones become FREE, and
CALL_ENDED says which it was. Neither finds a call that is not there, and CALL END is refused with RANGE for a clip call and with
BUSY for a live one in AWAIT_ACK (R135, R140, R141). The bytes of the detail are the model's choice (log entry 26). -/
def Obligations.CallsEndedOnRequest : Prop :=
  (∀ (o : Origin) (id : U16) (s : State), s.atItem .relayRequests → s.relay.requests = [] → s.hears o →
    (∀ c ∈ s.relay.calls, c.id ≠ id.toNat) →
    exec (.callEnd o id) s = .next (s.replied o { code := .notFound })
      ∧ exec (.callCancel o id) s = .next (s.replied o { code := .notFound }))
  ∧ ∀ (o : Origin) (id : U16) (c : Call) (s : State), s.atItem .relayRequests → s.relay.requests = [] → s.hears o → s.callsLawful →
    c ∈ s.relay.calls → c.id = id.toNat →
    (∀ k, c.source = .clip k → exec (.callEnd o id) s = .next (s.replied o { code := .range }))
    ∧ (∀ i, c.source = .input i → c.state = .awaitAck →
      exec (.callEnd o id) s = .next (s.replied o { code := .busy }))
    ∧ (∀ i, c.source = .input i → c.state = .waiting →
      ∃ t, exec (.callEnd o id) s = .next t ∧ t.callGone c.id
        ∧ s.reported t 1 { kind := .callEnded, subject := .call c.id, detail := [3, 2] }
        ∧ t.cue = s.cue ∧ t.clip = s.clip ∧ t.inputs = s.inputs ∧ t.mix = s.mix ∧ t.link = s.link)
    ∧ (∀ i b, c.source = .input i → c.state = .onAir b →
      ∃ t, exec (.callEnd o id) s = .next t ∧ (∀ z : Fin 16, t.relay.zones[z].call ≠ some c.id)
        ∧ (c.ackRequired = false ∨ c.allAcked = true → t.callGone c.id
            ∧ s.reported t 1 { kind := .callEnded, subject := .call c.id, detail := [0] })
        ∧ (c.ackRequired = true → c.allAcked = false → ∃ d ∈ t.relay.calls, d.id = c.id ∧ d.state = .awaitAck
            ∧ d.voice = none ∧ d.ackCount = 0 ∧ d.acks = c.acks)
        ∧ t.cue = s.cue ∧ t.clip = s.clip ∧ t.inputs = s.inputs ∧ t.mix = s.mix ∧ t.link = s.link)
    ∧ (∃ t, exec (.callCancel o id) s = .next t ∧ t.callGone c.id
        ∧ s.reported t 1 { kind := .callEnded, subject := .call c.id, detail := [3, 0] }
        ∧ (∀ z : Fin 16, t.relay.zones[z].call ≠ some c.id)
        ∧ t.cue = s.cue ∧ t.clip.clips = s.clip.clips ∧ t.inputs = s.inputs ∧ t.mix = s.mix ∧ t.link = s.link)

/-- A live call whose counter reaches its max on-air at step 1 of a pass leaves the air with ONAIR_LIMIT: it is DONE, which
CALL_ENDED says, or awaits the acknowledgements still missing (R135, R139). The bytes of the detail are the model's choice (log
entry 26). -/
def Obligations.OnAirLimitEndsCall : Prop :=
  ∀ (id : U16) (c : Call) (i : Fin 64) (b : Bool) (s : State), s.atItem .relayEnds → s.callsLawful →
    s.relay.reports = [] → c ∈ s.relay.calls → c.id = id.toNat → c.source = .input i → c.state = .onAir b →
    c.since < s.boundaries → c.maxOnAir ≤ c.onAirCount + 1 →
    ∃ t, exec (.onairLimit id) s = .next t
      ∧ (∀ z : Fin 16, t.relay.zones[z].call ≠ some c.id)
      ∧ s.reported t (2 * s.relay.calls.length) { kind := .onairLimit, subject := .call c.id, detail := [] }
      ∧ (c.ackRequired = false ∨ c.allAcked = true → t.callGone c.id
          ∧ s.reported t (2 * s.relay.calls.length) { kind := .callEnded, subject := .call c.id, detail := [0] })
      ∧ (c.ackRequired = true → c.allAcked = false → ∃ d ∈ t.relay.calls, d.id = c.id ∧ d.state = .awaitAck
          ∧ d.voice = none ∧ d.ackCount = 0 ∧ d.acks = c.acks)
      ∧ t.cue = s.cue ∧ t.clip = s.clip ∧ t.inputs = s.inputs ∧ t.mix = s.mix ∧ t.link = s.link

/-- A call whose ack counter reaches its timeout at step 4 of a pass returns to WAITING for the zones still unanswered while it has
repeats left, and is removed UNANSWERED when it has none, which CALL_ENDED says with the zones still PENDING (R135, R149). The
bytes of the detail are the model's choice (log entry 26). -/
def Obligations.AckTimeoutRepeats : Prop :=
  ∀ (id : U16) (c : Call) (s : State), s.atItem .relayAcks → s.callsLawful → c ∈ s.relay.calls → c.id = id.toNat →
    c.state = .awaitAck → c.since < s.boundaries → c.ackTimeout ≤ c.ackCount + 1 →
    ∃ t, exec (.ackTimeout id) s = .next t
      ∧ (c.repeats = 0 → t.callGone c.id
          ∧ s.reported t s.relay.calls.length
            { kind := .callEnded, subject := .call c.id, detail := [2] ++ bytes2 c.unanswered.toNat })
      ∧ (∀ k, c.repeats = k + 1 → ∃ d ∈ t.relay.calls, d.id = c.id ∧ d.state = .waiting ∧ d.repeats = k
          ∧ d.zones = c.unanswered ∧ d.waitCount = 0 ∧ d.voice = none)
      ∧ t.relay.zones = s.relay.zones
      ∧ t.cue = s.cue ∧ t.clip = s.clip ∧ t.inputs = s.inputs ∧ t.mix = s.mix ∧ t.link = s.link

/-- A call of priority 0 to 2 whose wait counter reaches its limit at step 7 of a pass is EXPIRED, which CALL_ENDED says, and
removed, and every other such call that is WAITING counts the pass (R135, R144). The byte of the detail is the model's choice (log
entry 26). -/
def Obligations.WaitingCallExpires : Prop :=
  ∀ (id : U16) (c : Call) (s : State), s.atItem .relayWaits → s.callsLawful → c ∈ s.relay.calls → c.id = id.toNat →
    c.state = .waiting → c.priority ≠ 3 → c.fromPass ≤ s.boundaries → c.waitLimit ≤ c.waitCount + 1 →
    ∃ t, exec (.expired id) s = .next t ∧ t.callGone c.id
      ∧ s.reported t s.relay.calls.length { kind := .callEnded, subject := .call c.id, detail := [1] }
      ∧ (∀ d ∈ s.relay.calls, d.state = .waiting → d.priority ≠ 3 → d.fromPass ≤ s.boundaries →
          d.waitCount + 1 < d.waitLimit → { d with waitCount := d.waitCount + 1 } ∈ t.relay.calls)
      ∧ t.relay.zones = s.relay.zones
      ∧ t.cue = s.cue ∧ t.clip = s.clip ∧ t.inputs = s.inputs ∧ t.mix = s.mix ∧ t.link = s.link

/-- A WAITING show-stop call goes on air SPEAKING in all its zones, HELD is SET, with CUE_HELD by SHOW_STOP when it was CLEAR,
SHOW_STOP_ON_AIR is posted with its zones, and no other call is left on air with a zone of its set: a live call always, a clip call
when a call voice in force is not changing side. Every call ON_AIR in a zone of its set, and the call whose voice it takes, is cut: a
live one is CANCELLED, which CALL_ENDED says with CUT, and a clip one is WAITING again with its wait counter at 0 and no zone asked,
which CALL_CUT says with the id of the stop; every other call stays as it is. A clip stop for which no call voice in force is free to
take is CANCELLED with NO_VOICE (R107, R135, R150, R151). The bytes of the detail of CALL_ENDED are the model's choice (log entry 26). -/
def Obligations.ShowStopTakesTheShow : Prop :=
  ∀ (c : Call) (s : State), s.atItem .relayStops → s.callsLawful → c ∈ s.relay.calls → c.priority = 3 →
    c.state = .waiting → c.fromPass ≤ s.boundaries →
    let room := s.relay.calls.length + 2
    let voiced (v : Fin 8) : Prop := 8 - s.clip.reserve ≤ v.val ∧ s.changesSide v = false
    let cut (d : Call) : Prop := d.isOnAir = true ∧ (d.zones &&& c.zones ≠ 0
      ∨ ∃ k v, c.source = .clip k ∧ (s.stopVoiceFor c.id = .start v ∨ s.stopVoiceFor c.id = .take v) ∧ s.servedCall v = some d)
    ((∃ i, c.source = .input i) ∨ (∃ v : Fin 8, voiced v) →
      ∃ t, exec .showStopOnAir s = .next t ∧ t.cue.held = true
        ∧ s.reported t room { kind := .showStopOnAir, subject := .call c.id, detail := bytes2 c.zones.toNat }
        ∧ (s.cue.held = false → s.reported t room { kind := .cueHeld, subject := .none, detail := [1] })
        ∧ (∃ d ∈ t.relay.calls, d.id = c.id ∧ d.state = .onAir true ∧ d.zones = c.zones ∧ d.onAirCount = 0
          ∧ (c.ackRequired = true → ∀ z : Fin 16, c.zones.getLsbD z.val = true → d.acks[z] ≠ .notAsked))
        ∧ (∀ z : Fin 16, c.zones.getLsbD z.val = true → t.relay.zones[z].call = some c.id)
        ∧ (∀ d ∈ t.relay.calls, d.id ≠ c.id → d.isOnAir = true → d.zones &&& c.zones = 0)
        ∧ (∀ d ∈ s.relay.calls, cut d →
          (∀ i, d.source = .input i → t.callGone d.id
            ∧ s.reported t room { kind := .callEnded, subject := .call d.id, detail := [3, 1] })
          ∧ ∀ k, d.source = .clip k →
            (∃ e ∈ t.relay.calls, e.id = d.id ∧ e.state = .waiting ∧ e.waitCount = 0 ∧ e.voice = none ∧ e.zones = d.zones
              ∧ e.repeats = d.repeats ∧ e.passes = d.passes ∧ ∀ z : Fin 16, e.acks[z] = .notAsked)
            ∧ s.reported t room { kind := .callCut, subject := .call d.id, detail := bytes2 c.id })
        ∧ (∀ d ∈ s.relay.calls, d.id ≠ c.id → ¬ cut d → d ∈ t.relay.calls)
        ∧ t.cue.cues = s.cue.cues ∧ t.cue.standby = s.cue.standby
        ∧ t.inputs = s.inputs ∧ t.mix = s.mix ∧ t.link = s.link)
    ∧ ((∃ k, c.source = .clip k) → (∀ v : Fin 8, ¬ voiced v) →
      ∃ t, exec .showStopOnAir s = .next t ∧ t.callGone c.id
        ∧ s.reported t 1 { kind := .callEnded, subject := .call c.id, detail := [3, 3] }
        ∧ t.cue = s.cue ∧ t.clip = s.clip ∧ t.relay.zones = s.relay.zones)

/-- At step 6 of a pass a WAITING call of priority 0 to 2 goes ON_AIR, ducking, when its zones are FREE and reserved by no other
call, it needs no voice or one is free, and no call before it in the order waits. The step considers every call in the scheduling
order; a call that cannot go on air stays as it is; when one does, the calls that come earlier in that order, still wait and share
a zone with it are passed: each counts its pass up to 3, and at 3 reserves the zones of its set that no other call has reserved
(R142, R143). That the calls passed by one call are taken in the scheduling order is the model's choice (log entry 35). -/
def Obligations.CallGoesOnAir : Prop :=
  (∀ s : State, runItem .relaySchedule s = ((scheduleOrder s.relay.calls).map Call.id).foldl State.considerCall s)
  ∧ (∀ (c : Call) (s : State), s.callsLawful → c ∈ s.relay.calls →
    (c.state ≠ .waiting ∨ c.priority = 3 ∨ s.boundaries < c.fromPass ∨ s.zonesOpen c = false →
      s.considerCall c.id = s)
    ∧ (∀ k, c.source = .clip k → s.freeCallVoice c.id = none → s.considerCall c.id = s)
    ∧ (c.state = .waiting → c.priority ≠ 3 → c.fromPass ≤ s.boundaries → s.zonesOpen c = true →
      (∀ i, c.source = .input i →
        s.considerCall c.id = (s.passedBy c).foldl State.passCall (s.goOnAir c.id false none))
      ∧ ∀ k v, c.source = .clip k → s.freeCallVoice c.id = some v →
        s.considerCall c.id = (s.passedBy c).foldl State.passCall (s.goOnAir c.id false (some v)))
    ∧ (s.zonesOpen c = true ↔ ∀ z : Fin 16, c.zones.getLsbD z.val = true →
      s.relay.zones[z].call = none ∧ ∀ d ∈ s.relay.calls, d.id ≠ c.id → d.reserved.getLsbD z.val = false)
    ∧ (∀ id, id ∈ s.passedBy c ↔ ∃ d ∈ (scheduleOrder s.relay.calls).takeWhile (fun d => d.id != c.id),
      d.id = id ∧ d.state = .waiting ∧ d.fromPass ≤ s.boundaries
        ∧ ∃ z : Fin 16, d.zones.getLsbD z.val = true ∧ c.zones.getLsbD z.val = true)
    ∧ (c.passes < 2 → s.passCall c.id = s.onCall c.id fun d => { d with passes := d.passes + 1 })
    ∧ (c.passes = 2 → ∃ taken : BitVec 16,
      s.passCall c.id = (s.onCall c.id fun d => { d with passes := 3, reserved := taken })
      ∧ ∀ z : Fin 16, taken.getLsbD z.val = true ↔ c.zones.getLsbD z.val = true
          ∧ ∀ d ∈ s.relay.calls, d.id ≠ c.id → d.reserved.getLsbD z.val = false)
    ∧ (3 ≤ c.passes → s.passCall c.id = s))
  ∧ ∀ (id : U16) (c : Call) (s : State), s.atItem .relaySchedule → s.callsLawful → c ∈ s.relay.calls → c.id = id.toNat →
    c.state = .waiting → c.priority ≠ 3 → c.fromPass ≤ s.boundaries → s.zonesOpen c = true →
    (∃ i, c.source = .input i) ∨ (∃ v, s.freeCallVoice c.id = some v) →
    (∀ d ∈ (scheduleOrder s.relay.calls).takeWhile (fun d => d.id != c.id), d.state ≠ .waiting ∨ d.priority = 3) →
    ∃ t, exec (.callOnAir id) s = .next t
      ∧ (∃ d ∈ t.relay.calls, d.id = c.id ∧ d.state = .onAir false ∧ d.onAirCount = 0 ∧ d.reserved = 0
          ∧ (c.ackRequired = true → ∀ z : Fin 16, c.zones.getLsbD z.val = true → d.acks[z] ≠ .notAsked))
      ∧ (∀ z : Fin 16, c.zones.getLsbD z.val = true → t.relay.zones[z].call = some c.id)
      ∧ t.cue = s.cue ∧ t.clip = s.clip ∧ t.inputs = s.inputs ∧ t.mix = s.mix ∧ t.msg = s.msg ∧ t.link = s.link

/-- At step 8 of a pass a call that has been DUCKING since an earlier pass and has every duck at depth becomes SPEAKING; a clip call
starts its clip on its voice at code 900, and one that finds no free call voice returns to WAITING as a cut call does, which CALL_CUT
says with the id 0 (R126, R145). The ducks they wait for move once in the step: each zone's end value by R20
toward its depth when the zone was ON_AIR at the end of the pass before, with an attack of 1 when the call that held it then was of
priority 3, and toward unity when it was FREE, and the duck state follows (R133). -/
def Obligations.CallSpeaks : Prop :=
  (∀ s : State,
    let t := runItem .relayDucks s
    (∀ z : Fin 16,
      let r := s.relay.zones[z]
      let depth := lin r.entry.duckDepth
      let target := if r.wasOnAir then depth else 4194304
      let e := duckMove r.duckEnd target depth (if r.wasStop then 1 else r.entry.attack) r.entry.release
      t.relay.zones[z] = { r with
        duckFrom := r.duckEnd, duckEnd := e
        duckState := if target < e then .attacking else if e < target then .releasing
          else if r.wasOnAir then .heldDown else .idle })
    ∧ t = { s with relay := { s.relay with zones := t.relay.zones } })
  ∧ (∀ (s : State) env clocks items (z : Fin 16),
    (s.openFrame env clocks items).relay.zones[z].wasOnAir = s.relay.zones[z].call.isSome
    ∧ ((s.openFrame env clocks items).relay.zones[z].wasStop = true ↔
      ∃ id c, s.relay.zones[z].call = some id ∧ s.callOf id = some c ∧ c.priority = 3))
  ∧ ∀ (id : U16) (c : Call) (s : State), s.atItem .relaySpeak → s.callOf id.toNat = some c → c.state = .onAir false →
    c.since < s.boundaries →
    (∀ z : Fin 16, c.zones.getLsbD z.val = true →
      s.relay.zones[z].duckEnd = lin s.relay.zones[z].entry.duckDepth) →
    (∀ i, c.source = .input i →
      exec (.callSpeaking id) s = .next (s.onCall id.toNat fun d => { d with state := .onAir true }))
    ∧ (∀ k v, c.source = .clip k → c.voice = some v → s.voiceFree c.id v = true →
      ∃ t, exec (.callSpeaking id) s = .next t
        ∧ t.relay = (s.onCall id.toNat fun d => { d with state := .onAir true, voice := some v }).relay
        ∧ t.clip.voices[v].state = .playing ∧ t.clip.voices[v].position = 0 ∧ t.clip.voices[v].gain = 900
        ∧ t.clip.voices[v].playback = some { clip := k, loop := false, owner := .call id.toNat, serial := 0 }
        ∧ (∀ u : Fin 8, u ≠ v → t.clip.voices[u] = s.clip.voices[u])
        ∧ t.inputs = s.inputs ∧ t.mix = s.mix ∧ t.msg = s.msg ∧ t.link = s.link)
    ∧ (∀ k, c.source = .clip k → (∀ v, s.voiceFree c.id v = false) →
      ∃ t, exec (.callSpeaking id) s = .next t ∧ (∀ z : Fin 16, t.relay.zones[z].call ≠ some c.id)
        ∧ (∃ d ∈ t.relay.calls, d.id = c.id ∧ d.state = .waiting ∧ d.voice = none ∧ d.waitCount = 0)
        ∧ s.reported t 1 { kind := .callCut, subject := .call c.id, detail := [0, 0] }
        ∧ t.cue = s.cue ∧ t.clip = s.clip ∧ t.inputs = s.inputs ∧ t.mix = s.mix ∧ t.link = s.link)

/-- Step 3 of a pass reads one acknowledge line: asserted on a CLEAR latch it sets the latch and takes one press, asserted on a SET
latch it takes nothing, released it clears the latch; a line never taken counts as released. The step reads every zone's line, and
after cold reset every latch is CLEAR (R146). A press answers the call ON_AIR in its zone with its acknowledgement there PENDING,
else the earliest call in AWAIT_ACK with one PENDING there, and no other: the zone is ACKED; a call that awaited the last of its
zones is DONE and leaves the queue with CALL_ENDED, and a call ON_AIR goes on; where there is neither call, nothing is answered
(R147). Step 9 lights the lamp of every zone for which a call in the queue has an acknowledgement PENDING, makes every other lamp
dark, and changes nothing else of any call or zone (R148). That the presses of one pass are read by ascending zone is the model's
choice (log entry 35), and so are the bytes of the detail of CALL_ENDED (log entry 26). -/
def Obligations.PressTakenOnce : Prop :=
  (∀ (straps : BitVec 6) (z : Fin 16), (State.cold straps).relay.zones[z].latch = false)
  ∧ (∀ s : State, runItem .relayPresses s = (List.finRange 16).foldl State.readAckLine s)
  ∧ (∀ (s : State) (z : Fin 16), ∃ lit : Bool,
    (runItem .relayLamps s).relay.zones[z] = { s.relay.zones[z] with lamp := lit }
    ∧ (lit = true ↔ ∃ c ∈ s.relay.calls, c.zones.getLsbD z.val = true ∧ c.acks[z] = .pending)
    ∧ (runItem .relayLamps s).relay.calls = s.relay.calls ∧ (runItem .relayLamps s).relay.stopOnAir = s.stopIsOnAir)
  ∧ (∀ (z : Fin 16) (s : State), s.callsLawful →
    let onAir (d : Call) : Prop := d.isOnAir = true ∧ s.relay.zones[z].call = some d.id ∧ d.acks[z] = .pending
    let awaits (d : Call) : Prop := d.state = .awaitAck ∧ d.zones.getLsbD z.val = true ∧ d.acks[z] = .pending
    let acked (c : Call) : State := s.onCall c.id fun d => { d with acks := put d.acks z .acked }
    (∀ c ∈ s.relay.calls, onAir c → s.takePress z = acked c)
    ∧ (∀ c before after, s.relay.calls = before ++ c :: after → (∀ d ∈ s.relay.calls, ¬ onAir d) → awaits c →
      (∀ d ∈ before, ¬ awaits d) →
      ((∃ y : Fin 16, y ≠ z ∧ c.zones.getLsbD y.val = true ∧ c.acks[y] ≠ .acked) → s.takePress z = acked c)
      ∧ ((∀ y : Fin 16, y ≠ z → c.zones.getLsbD y.val = true → c.acks[y] = .acked) →
        s.takePress z = (s.onRelay fun r => { r with calls := before ++ after }).post
          { kind := .callEnded, subject := .call c.id, detail := [0] }))
    ∧ ((∀ d ∈ s.relay.calls, ¬ onAir d ∧ ¬ awaits d) → s.takePress z = s))
  ∧ ∀ (z : Fin 16) (s : State),
    (s.ports.ack[z].taken = some true → s.relay.zones[z].latch = false →
      s.readAckLine z = (s.onZone z fun r => { r with latch := true }).takePress z)
    ∧ (s.ports.ack[z].taken = some true → s.relay.zones[z].latch = true → s.readAckLine z = s)
    ∧ (s.ports.ack[z].taken ≠ some true → s.readAckLine z = s.onZone z fun r => { r with latch := false })

/-! ### The message controller -/

/-- The request cell of a frame that passed its check and is not DAMAGED is taken at the node's address, at broadcast and at its
groups, and acts on the partial message by the cases of R173; one whose message is complete takes a place in the reply queue, or is
discarded with REQUEST_OVERRUN when all four are taken; and the message is executed after the boundary's other work but the meters of
the frame (R172 to R176). That order is log entry 7; that an empty body gives its REQUEST_OVERRUN the kind 0 is the model's choice
(log entry 18). -/
def Obligations.RequestCellsBecomeMessages : Prop :=
  (∀ (f : Frame) (s : State), s.link.frame = some f →
    let c := f.request
    let t := runItem .cell s
    let empty := s.onMsg fun m => { m with assembler := none }
    let ignored := fun (r : FragmentReason) (tag : U8) =>
      empty.post { kind := .fragmentDiscarded, subject := .none, detail := byte r.ctorIdx ++ [tag] }
    let mine := s.msg.address = some c.address ∨ c.address = 63
      ∨ (64 ≤ c.address.toNat ∧ c.address ∈ s.msg.node.groups.toList)
    let begun : Partial := { destination := c.address, tag := c.tag, cells := 1, expected := 1, body := c.content }
    (s.link.checked = false ∨ f.damaged = true ∨ ¬ mine → t = s)
    ∧ (s.link.checked = true → f.damaged = false → mine →
      (28 < c.length.toNat → t = ignored .cellLength ((s.msg.assembler.map Partial.tag).getD c.tag))
      ∧ (c.length.toNat ≤ 28 → c.start = true →
        let opened := (s.msg.assembler.map fun p => ignored .newStart p.tag).getD s
        t = if c.ends then (opened.onMsg fun m => { m with assembler := none }).complete (s.partialOrigin begun) begun.body
          else opened.onMsg fun m => { m with assembler := some begun })
      ∧ (c.length.toNat ≤ 28 → c.start = false → s.msg.assembler = none → t = s)
      ∧ ∀ p, c.length.toNat ≤ 28 → c.start = false → s.msg.assembler = some p →
        let longer : Partial :=
          { p with cells := p.cells + 1, expected := p.expected + 1, body := p.body ++ c.content }
        (c.address ≠ p.destination ∨ c.sequence ≠ p.expected → t = ignored .sequence p.tag)
        ∧ (c.address = p.destination → c.sequence = p.expected → p.cells < 10 →
          t = if c.ends then empty.complete (s.partialOrigin p) longer.body
            else s.onMsg fun m => { m with assembler := some longer })
        ∧ (c.address = p.destination → c.sequence = p.expected → 10 ≤ p.cells →
          (s.msg.address = some p.destination → s.msg.replies.length < 4 →
            t = (empty.onMsg fun m => m.placed (.addressed p.tag)).answer (some s.msg.nextPlace) { code := .length })
          ∧ (s.msg.address = some p.destination → 4 ≤ s.msg.replies.length →
            t = empty.post { kind := .requestOverrun, subject := .none, detail := [p.tag, p.body.headD 0] })
          ∧ (s.msg.address ≠ some p.destination → t = ignored .length p.tag))))
  ∧ (∀ (tag : U8) (body : List U8) (s : State),
    (s.msg.replies.length < 4 → s.complete (.addressed tag) body = s.onMsg fun m => { m.placed (.addressed tag) with
      completed := some { origin := .addressed tag, place := some s.msg.nextPlace, body := body } })
    ∧ (4 ≤ s.msg.replies.length → s.complete (.addressed tag) body
        = s.post { kind := .requestOverrun, subject := .none, detail := [tag, body.headD 0] })
    ∧ ∀ o, (∀ x, o ≠ .addressed x) → s.complete o body = s.onMsg fun m => { m with
        completed := some { origin := o, place := none, body := body } })
  ∧ (∀ it ∈ allItems, it ≠ .execute → isMeter it = false → it ∈ needs .execute)
  ∧ (∀ (c : Completed) (s : State), s.msg.completed = some c →
    let kept := s.show.onMsg fun m => { m with completed := none }
    (∀ code, parseBody c.body = .error code → runItem .execute s = kept.answer c.place { code := code })
    ∧ ∀ r, parseBody c.body = .ok r →
      runItem .execute s = if dropped c.origin r then kept else kept.handOver c.origin c.place r)
  ∧ ∀ (tag : U8) (r : Request) (s : State), s.between → s.reached (.addressed tag) = true →
    4 ≤ s.msg.replies.length →
    s.messageNow (.addressed tag) r
      = s.post { kind := .requestOverrun, subject := .none, detail := [tag, requestKind r] }

/-- What the node writes into the frame it forwards, apart from its sends: the attention bit of its own address as its event queue
stands at the forwarding, and no other (law L12); and one cell of the reply at the head of the queue, when that was complete before
this boundary and the answer cell arrived empty in a frame that passed its check undamaged, the reply leaving the queue with its
last cell; else the answer cell as it arrived (R166, R167, R177). -/
def Obligations.ForwardedFrameCarries : Prop :=
  ∀ (f : Frame) (s : State), s.link.frame = some f →
    ∃ g, (runItem .forward s).link.sent = some g
      ∧ (s.msg.address = none → g.attention = f.attention ∧ g.answer = f.answer)
      ∧ ∀ a : U8, s.msg.address = some a → a.toNat < 64 →
        (g.attention.getLsbD (63 - a.toNat) = !s.msg.events.isEmpty)
        ∧ (∀ k, k ≠ 63 - a.toNat → g.attention.getLsbD k = f.attention.getLsbD k)
        ∧ (s.link.checked = false ∨ f.damaged = true ∨ f.answer.address ≠ 0 →
          g.answer = f.answer ∧ (runItem .forward s).msg = s.msg)
        ∧ (s.msg.replies = [] → g.answer = f.answer)
        ∧ (∀ r rest, s.msg.replies = r :: rest → r.body = none ∨ s.boundaries ≤ r.completedAt →
          g.answer = f.answer ∧ (runItem .forward s).msg = s.msg)
        ∧ ∀ r rest body, s.msg.replies = r :: rest → r.body = some body → r.completedAt < s.boundaries →
          s.link.checked = true → f.damaged = false → f.answer.address = 0 →
          let content := (body.drop (28 * r.cellsSent)).take 28
          let last := decide (body.length ≤ 28 * (r.cellsSent + 1))
          g.answer.address = a ∧ g.answer.tag = r.tag ∧ g.answer.length.toNat = content.length
          ∧ g.answer.flags = BitVec.ofNat 8 ((if r.cellsSent = 0 then 128 else 0) + (if last then 64 else 0) + r.cellsSent % 16)
          ∧ (∀ k : Fin 28, g.answer.body[k] = content.getD k.val 0)
          ∧ (runItem .forward s).msg = { s.msg with
              replies := if last then rest else { r with cellsSent := r.cellsSent + 1 } :: rest }

/-- A post sets its condition and no other but EVENT_OVERFLOW; a reported kind joins the end of the queue, or sets EVENT_OVERFLOW when
the queue holds 32; a kind that is not reported only sets its condition (R184). The message controller's own posts are made at once.
Another block's reaches it at once, or, when the command of the boundary has the block post late, at the boundary's delivery: each
turn of a block there delivers the oldest of its posts, and the rest follow in the order in which they were sent; and the posts of
the clips that end a frame come in the same way when both meters are taken together, by the turns that the command gives for them
(log entry 2). That flag k of the enables and of the conditions is bit k of its value is the model's choice (log entry 10). -/
def Obligations.PostsAreKept : Prop :=
  (∀ (s : State) (p : Post),
    ((∀ b ∈ s.msg.late, p.kind.poster ≠ some b) → s.post p = { s with msg := s.msg.post s.link.counter p })
    ∧ ((∃ b ∈ s.msg.late, p.kind.poster = some b) → s.post p = { s with
        msg := { s.msg with coming := s.msg.coming ++ [{ stamp := s.link.counter, post := p }] } }))
  ∧ (∀ k : EventKind, k.poster = none ↔ k = .fragmentDiscarded ∨ k = .requestOverrun ∨ k = .holdTimeout ∨ k = .showReset)
  ∧ (∀ s : State,
    let once (it : Item) (t : State) : State := if t.isDue it then runItem it (t.without it) else t
    runItem .meters s = runItem .latePosts (once .busMeters (once .inputMeters { s with
      msg := { s.msg with late := s.msg.frameLate, frameLate := [] } }))
    ∧ (s.msg.late = [] → runItem .latePosts s = { s with
      msg := s.msg.coming.foldl (fun m e => m.post e.stamp e.post)
        { s.msg with coming := [] } })
    ∧ (∀ b turns e before after, s.msg.late = b :: turns → s.msg.coming = before ++ e :: after →
      e.post.kind.poster = some b → (∀ d ∈ before, d.post.kind.poster ≠ some b) →
      runItem .latePosts s = runItem .latePosts { s with
        msg := { s.msg with late := turns, coming := before ++ after }.post e.stamp e.post })
    ∧ ∀ b turns, s.msg.late = b :: turns → (∀ e ∈ s.msg.coming, e.post.kind.poster ≠ some b) →
      runItem .latePosts s = runItem .latePosts { s with msg := { s.msg with late := turns } })
  ∧ ∀ (m : Msg) (stamp : U32) (p : Post),
    let reported := m.node.enables.getLsbD p.kind.value || p.kind.alwaysReported
    (m.post stamp p).conditions.getLsbD p.kind.value = true
    ∧ (∀ k, k ≠ 0 → k ≠ p.kind.value → (m.post stamp p).conditions.getLsbD k = m.conditions.getLsbD k)
    ∧ ((m.post stamp p).conditions.getLsbD 0
        = (m.conditions.getLsbD 0 || (reported && decide (32 ≤ m.events.length))))
    ∧ ((m.post stamp p).events
        = if reported = true ∧ m.events.length < 32 then m.events ++ [{ stamp := stamp, post := p }] else m.events)
    ∧ m.post stamp p = { m with
        conditions := (m.post stamp p).conditions, events := (m.post stamp p).events }

/-- EVENT FETCH takes the oldest records off the queue, at most 10 and at most as many as asked for; FLAGS CLEAR clears the
named conditions, and the flags of inputs and buses with those of INPUT_CLIP, BUS_CLIP and LIMITING (R185). The one-byte
counts of the reply, and that flag k is bit k of the 64-bit value, are the model's choice (log entry 10). -/
def Obligations.EventsFetchedFlagsCleared : Prop :=
  ∀ s : State, s.between →
    (∀ tag max : U8, s.hears (.addressed tag) →
      let n := min 10 max.toNat
      exec (.eventFetch (.addressed tag) max) s = .next
        ((s.onMsg fun m => { m with events := m.events.drop n }).replied (.addressed tag)
          { code := .ok
            data := byte (s.msg.events.take n).length ++ byte (s.msg.events.drop n).length
              ++ yesNo (s.msg.conditions.getLsbD 0) ++ (s.msg.events.take n).flatMap EventRecord.bytes }))
    ∧ ∀ (o : Origin) (flags : U64), s.hears o →
      ∃ t : State, exec (.flagsClear o flags) s
          = .next (t.replied o { code := .ok, data := bytes8 s.msg.conditions.toNat })
        ∧ t = { s with
            inputs := t.inputs
            mix := { s.mix with buses := t.mix.buses }
            msg := { s.msg with conditions := s.msg.conditions &&& ~~~flags } }
        ∧ (∀ i : Fin 64, t.inputs[i] = { s.inputs[i] with clip := s.inputs[i].clip && !flags.getLsbD 5 })
        ∧ (∀ b : Fin 32, t.mix.buses[b] = { s.mix.buses[b] with
            clip := s.mix.buses[b].clip && !flags.getLsbD 6
            limiting := s.mix.buses[b].limiting && !flags.getLsbD 7 })

/-- STATUS READ changes nothing but the reply it leaves, whatever part it asks for; the link part is the nine values of R171, as
they stood at the most recent boundary (R171, R186). The two-byte counts of the link part are the model's choice (log entry 10). -/
def Obligations.StatusReadChangesNothing : Prop :=
  (∀ (tag part first count : U8) (s : State), s.between → s.hears (.addressed tag) →
    ∃ r, exec (.statusRead (.addressed tag) part first count) s = .next (s.replied (.addressed tag) r)
      ∧ (8 < part.toNat → r = { code := .range })
      ∧ (3 ≤ part.toNat → part.toNat ≤ 8 → r.code = .ok)
      ∧ (part = 7 → r.data = byte s.shown.link.state.ctorIdx ++ byte (if s.shown.link.linkTimed then 0 else 1)
          ++ portByte s.shown.link.upstream ++ bytes4 s.shown.link.counter.toNat ++ bytes2 s.shown.link.reacquire
          ++ bytes2 s.shown.link.damaged ++ bytes2 s.shown.link.hopDrop ++ bytes2 s.shown.link.reverse
          ++ bytes2 s.shown.link.loss))
    ∧ ∀ u : State, (runItem .execute u).shown.link = u.link

/-- A RESET with mode WARM, taken at its boundary, empties the message controller's stores and clears the conditions, the
meters and the clip and limiting flags, leaves its own reply as the only one, and touches no table, cue, clip, call or link
(R187). The place of the reply is the model's own (log entry 14), and that the age of the hold that is closed is 0, which Table 9-9 does
not name, is its choice (log entries 20 and 36). -/
def Obligations.WarmResetEmpties : Prop :=
  ∀ (tag : U8) (s : State), s.atItem .warmReset → (∀ w ∈ s.msg.resets, w.isWarm = false) → s.hears (.addressed tag) →
    ∃ t, exec (.resetWarm (.addressed tag)) s = .next t
      ∧ t.msg = { s.msg with
          assembler := none, holdOpen := false, holdAge := 0, staged := [], events := [], conditions := 0
          nextPlace := s.msg.nextPlace + 1
          replies := [{ place := s.msg.nextPlace, tag := tag, body := some [0], completedAt := s.boundaries
                        cellsSent := 0 }] }
      ∧ (∀ i : Fin 64, t.inputs[i] = { s.inputs[i] with meter := 0, clip := false })
      ∧ (∀ b : Fin 32, t.mix.buses[b] = { s.mix.buses[b] with meter := 0, clip := false, limiting := false })
      ∧ t = { s with inputs := t.inputs, mix := { s.mix with buses := t.mix.buses }, msg := t.msg }

/-- A RESET with mode SHOW, taken at its boundary: no fade and no follow is left, every target rests at its last value, HELD
is CLEAR and the standby is the first cue; every voice is IDLE; no call is left, every zone is FREE and dark; the cue list and
the clips stay, and SHOW_RESET is posted (R110, R130, R155, R187). That the relay's work of this boundary is no longer due is log entry 14. -/
def Obligations.ShowResetClears : Prop :=
  ∀ (o : Origin) (s : State), s.atItem .showReset → (∀ w ∈ s.msg.resets, w.isWarm = true) → s.hears o → s.lawL3 →
    ∃ t, exec (.showReset o) s = .next t
      ∧ t.cue.fades = [] ∧ t.cue.follow = none ∧ t.cue.held = false ∧ t.cue.cues = s.cue.cues
      ∧ t.cue.standby = s.cue.cues.head?.map Cue.number
      ∧ (∀ u, t.setCode u = (s.fadeOf u).elim (s.setCode u) Fade.lastCode)
      ∧ (∀ v : Fin 8, t.clip.voices[v].state = .idle ∧ t.clip.voices[v].playback = none
          ∧ t.clip.voices[v].pending = none ∧ t.clip.voices[v].factorEnd = 4194304)
      ∧ t.clip.clips = s.clip.clips ∧ t.clip.capture = s.clip.capture
      ∧ t.relay.calls = [] ∧ (∀ z : Fin 16, t.relay.zones[z].call = none ∧ t.relay.zones[z].lamp = false)
      ∧ s.reported t 1 { kind := .showReset, subject := .none, detail := [] } ∧ t.inputs = s.inputs ∧ t.link = s.link

/-- Every well-formed request is read back from the bytes its body carries: no field and no bit of a message is dropped (R175,
R178, Table 9-3). -/
def Obligations.BodiesReadBack : Prop :=
  ∀ r : Request, r.wellFormed = true → parseBody (requestBody r) = .ok r

/-! ### Invariants of every step -/

/-- Law L3 is kept by every step: at most 256 fade records, and no two of one target. -/
def Obligations.FadeTableKept : Prop := ∀ s t : State, s.lawL3 → step s = .next t → t.lawL3

/-- Law L5 is kept by every step: the clip records fit in clip memory. -/
def Obligations.ClipMemoryKept : Prop := ∀ s t : State, s.lawL5 → step s = .next t → t.lawL5

/-- Law L7 is kept by every step, with the order of the call queue: ids distinct, at most 16 calls of priority 0 to 2 and one of
priority 3, and HELD while that one is on air. -/
def Obligations.ShowStopHolds : Prop := ∀ s t : State, s.lawL7 → step s = .next t → t.lawL7

/-- Law L11 is kept by every step, with the order of the cue list: numbers strictly rising, at most 512 cues and 4,096 actions, and a
standby that is in the list. -/
def Obligations.StandbyInList : Prop := ∀ s t : State, s.lawL11 → step s = .next t → t.lawL11

/-- The stores of the message controller are kept within their sizes by every step, at most 4 replies, 32 events and 256 staged
entries of distinct keys, with none while the hold is closed; and every step keeps the places of the reply queue in strictly rising
order, every place in use older than the next (R176, R182 to R184; the numbers of the places are the model's own, log entry 21). -/
def Obligations.StoresKept : Prop :=
  (∀ s t : State, s.storesBounded → step s = .next t → t.storesBounded)
    ∧ ∀ s t : State, s.placesLawful → step s = .next t → t.placesLawful

/-- The invariants hold of the node after reset. -/
def Obligations.ResetKeepsLaws : Prop :=
  State.reset.lawL3 ∧ State.reset.lawL5 ∧ State.reset.lawL7 ∧ State.reset.lawL11 ∧ State.reset.storesBounded
    ∧ State.reset.placesLawful

end
end

