-- ==== Sys2Proof/Laws/Calls.lean ====
section
/-! SUPPORT. The call queue and its zone sets: finding a call, the zones of a set, and the zones that others reserve. -/

namespace Sys2Proof.Machine

open Sys2Proof

/-- Two calls of a lawful queue with one id are one call (R135). -/
theorem call_of_id {l : List Call} (h : (l.map Call.id).Nodup) {c d : Call} (hc : c ∈ l) (hd : d ∈ l) (e : c.id = d.id) :
    c = d :=
  List.inj_on_of_nodup_map h hc hd e

/-- A call of a lawful queue is found by its id. -/
theorem callOf_of_mem {s : State} (h : (s.relay.calls.map Call.id).Nodup) {c : Call} (hc : c ∈ s.relay.calls) :
    s.callOf c.id = some c := by
  unfold State.callOf
  cases hf : s.relay.calls.find? (fun d => d.id == c.id) with
  | none => rw [List.find?_eq_none] at hf; exact absurd (by simp) (hf c hc)
  | some d =>
    have h1 := List.find?_some hf
    have h2 := List.mem_of_find?_eq_some hf
    simp at h1
    rw [call_of_id h h2 hc h1]

/-- The zones gathered from the calls of other ids. -/
theorem foldl_reserved (l : List Call) (id : Nat) (a : BitVec 16) (z : Nat) :
    (l.foldl (fun acc c => if c.id = id then acc else acc ||| c.reserved) a).getLsbD z = true ↔
      a.getLsbD z = true ∨ ∃ d ∈ l, d.id ≠ id ∧ d.reserved.getLsbD z = true := by
  induction l generalizing a with
  | nil => simp
  | cons c l ih =>
    rw [List.foldl_cons, ih]
    split
    · next h => simp [h]
    · next h => simp [h, or_assoc]

/-- A zone that no other call has reserved (R143). -/
theorem reservedByOthers_clear (s : State) (id : Nat) (z : Fin 16) :
    (s.reservedByOthers id).getLsbD z.val = false ↔
      ∀ d ∈ s.relay.calls, d.id ≠ id → d.reserved.getLsbD z.val = false := by
  have := foldl_reserved s.relay.calls id 0 z.val
  unfold State.reservedByOthers
  rw [← Bool.not_eq_true, this]
  simp

/-- Two zone sets that share no zone. -/
theorem disjoint_zones (x y : BitVec 16) :
    (x &&& y == 0) = true ↔ ∀ z : Fin 16, x.getLsbD z.val = true → y.getLsbD z.val = false := by
  rw [beq_iff_eq]
  constructor
  · intro h z hz
    have := congrArg (fun w => w.getLsbD z.val) h
    simpa [hz] using this
  · intro h
    apply BitVec.eq_of_getLsbD_eq
    intro i hi
    have := h ⟨i, hi⟩
    simp at this ⊢
    exact this

/-- The zones of a set. -/
theorem mem_zonesOf (x : BitVec 16) (z : Fin 16) : z ∈ zonesOf x ↔ x.getLsbD z.val = true := by
  simp [zonesOf]

end Sys2Proof.Machine
end

