-- ==== Sys2Proof/Laws/State.lean ====
section
/-! SUPPORT. What each named update of the state does to each field of the state: the field it changes, and every other, unchanged. -/

namespace Sys2Proof.Machine

open Sys2Proof

/-! ### onLink -/

@[simp] theorem State.onLink_pending (s : State) (f : Link → Link) : (s.onLink f).pending = s.pending := rfl
@[simp] theorem State.onLink_boundaries (s : State) (f : Link → Link) : (s.onLink f).boundaries = s.boundaries := rfl
@[simp] theorem State.onLink_frameOpen (s : State) (f : Link → Link) : (s.onLink f).frameOpen = s.frameOpen := rfl
@[simp] theorem State.onLink_due (s : State) (f : Link → Link) : (s.onLink f).due = s.due := rfl
@[simp] theorem State.onLink_shown (s : State) (f : Link → Link) : (s.onLink f).shown = s.shown := rfl
@[simp] theorem State.onLink_shownPass (s : State) (f : Link → Link) : (s.onLink f).shownPass = s.shownPass := rfl
@[simp] theorem State.onLink_link (s : State) (f : Link → Link) : (s.onLink f).link = f s.link := rfl
@[simp] theorem State.onLink_msg (s : State) (f : Link → Link) : (s.onLink f).msg = s.msg := rfl
@[simp] theorem State.onLink_inputs (s : State) (f : Link → Link) : (s.onLink f).inputs = s.inputs := rfl
@[simp] theorem State.onLink_mix (s : State) (f : Link → Link) : (s.onLink f).mix = s.mix := rfl
@[simp] theorem State.onLink_cue (s : State) (f : Link → Link) : (s.onLink f).cue = s.cue := rfl
@[simp] theorem State.onLink_clip (s : State) (f : Link → Link) : (s.onLink f).clip = s.clip := rfl
@[simp] theorem State.onLink_relay (s : State) (f : Link → Link) : (s.onLink f).relay = s.relay := rfl
@[simp] theorem State.onLink_ports (s : State) (f : Link → Link) : (s.onLink f).ports = s.ports := rfl

/-! ### onMsg -/

@[simp] theorem State.onMsg_pending (s : State) (f : Msg → Msg) : (s.onMsg f).pending = s.pending := rfl
@[simp] theorem State.onMsg_boundaries (s : State) (f : Msg → Msg) : (s.onMsg f).boundaries = s.boundaries := rfl
@[simp] theorem State.onMsg_frameOpen (s : State) (f : Msg → Msg) : (s.onMsg f).frameOpen = s.frameOpen := rfl
@[simp] theorem State.onMsg_due (s : State) (f : Msg → Msg) : (s.onMsg f).due = s.due := rfl
@[simp] theorem State.onMsg_shown (s : State) (f : Msg → Msg) : (s.onMsg f).shown = s.shown := rfl
@[simp] theorem State.onMsg_shownPass (s : State) (f : Msg → Msg) : (s.onMsg f).shownPass = s.shownPass := rfl
@[simp] theorem State.onMsg_link (s : State) (f : Msg → Msg) : (s.onMsg f).link = s.link := rfl
@[simp] theorem State.onMsg_msg (s : State) (f : Msg → Msg) : (s.onMsg f).msg = f s.msg := rfl
@[simp] theorem State.onMsg_inputs (s : State) (f : Msg → Msg) : (s.onMsg f).inputs = s.inputs := rfl
@[simp] theorem State.onMsg_mix (s : State) (f : Msg → Msg) : (s.onMsg f).mix = s.mix := rfl
@[simp] theorem State.onMsg_cue (s : State) (f : Msg → Msg) : (s.onMsg f).cue = s.cue := rfl
@[simp] theorem State.onMsg_clip (s : State) (f : Msg → Msg) : (s.onMsg f).clip = s.clip := rfl
@[simp] theorem State.onMsg_relay (s : State) (f : Msg → Msg) : (s.onMsg f).relay = s.relay := rfl
@[simp] theorem State.onMsg_ports (s : State) (f : Msg → Msg) : (s.onMsg f).ports = s.ports := rfl

/-! ### onInputs -/

@[simp] theorem State.onInputs_pending (s : State) (f : Vector InputRecord 64 → Vector InputRecord 64) : (s.onInputs f).pending = s.pending := rfl
@[simp] theorem State.onInputs_boundaries (s : State) (f : Vector InputRecord 64 → Vector InputRecord 64) : (s.onInputs f).boundaries = s.boundaries := rfl
@[simp] theorem State.onInputs_frameOpen (s : State) (f : Vector InputRecord 64 → Vector InputRecord 64) : (s.onInputs f).frameOpen = s.frameOpen := rfl
@[simp] theorem State.onInputs_due (s : State) (f : Vector InputRecord 64 → Vector InputRecord 64) : (s.onInputs f).due = s.due := rfl
@[simp] theorem State.onInputs_shown (s : State) (f : Vector InputRecord 64 → Vector InputRecord 64) : (s.onInputs f).shown = s.shown := rfl
@[simp] theorem State.onInputs_shownPass (s : State) (f : Vector InputRecord 64 → Vector InputRecord 64) : (s.onInputs f).shownPass = s.shownPass := rfl
@[simp] theorem State.onInputs_link (s : State) (f : Vector InputRecord 64 → Vector InputRecord 64) : (s.onInputs f).link = s.link := rfl
@[simp] theorem State.onInputs_msg (s : State) (f : Vector InputRecord 64 → Vector InputRecord 64) : (s.onInputs f).msg = s.msg := rfl
@[simp] theorem State.onInputs_inputs (s : State) (f : Vector InputRecord 64 → Vector InputRecord 64) : (s.onInputs f).inputs = f s.inputs := rfl
@[simp] theorem State.onInputs_mix (s : State) (f : Vector InputRecord 64 → Vector InputRecord 64) : (s.onInputs f).mix = s.mix := rfl
@[simp] theorem State.onInputs_cue (s : State) (f : Vector InputRecord 64 → Vector InputRecord 64) : (s.onInputs f).cue = s.cue := rfl
@[simp] theorem State.onInputs_clip (s : State) (f : Vector InputRecord 64 → Vector InputRecord 64) : (s.onInputs f).clip = s.clip := rfl
@[simp] theorem State.onInputs_relay (s : State) (f : Vector InputRecord 64 → Vector InputRecord 64) : (s.onInputs f).relay = s.relay := rfl
@[simp] theorem State.onInputs_ports (s : State) (f : Vector InputRecord 64 → Vector InputRecord 64) : (s.onInputs f).ports = s.ports := rfl

/-! ### onMix -/

@[simp] theorem State.onMix_pending (s : State) (f : Mix → Mix) : (s.onMix f).pending = s.pending := rfl
@[simp] theorem State.onMix_boundaries (s : State) (f : Mix → Mix) : (s.onMix f).boundaries = s.boundaries := rfl
@[simp] theorem State.onMix_frameOpen (s : State) (f : Mix → Mix) : (s.onMix f).frameOpen = s.frameOpen := rfl
@[simp] theorem State.onMix_due (s : State) (f : Mix → Mix) : (s.onMix f).due = s.due := rfl
@[simp] theorem State.onMix_shown (s : State) (f : Mix → Mix) : (s.onMix f).shown = s.shown := rfl
@[simp] theorem State.onMix_shownPass (s : State) (f : Mix → Mix) : (s.onMix f).shownPass = s.shownPass := rfl
@[simp] theorem State.onMix_link (s : State) (f : Mix → Mix) : (s.onMix f).link = s.link := rfl
@[simp] theorem State.onMix_msg (s : State) (f : Mix → Mix) : (s.onMix f).msg = s.msg := rfl
@[simp] theorem State.onMix_inputs (s : State) (f : Mix → Mix) : (s.onMix f).inputs = s.inputs := rfl
@[simp] theorem State.onMix_mix (s : State) (f : Mix → Mix) : (s.onMix f).mix = f s.mix := rfl
@[simp] theorem State.onMix_cue (s : State) (f : Mix → Mix) : (s.onMix f).cue = s.cue := rfl
@[simp] theorem State.onMix_clip (s : State) (f : Mix → Mix) : (s.onMix f).clip = s.clip := rfl
@[simp] theorem State.onMix_relay (s : State) (f : Mix → Mix) : (s.onMix f).relay = s.relay := rfl
@[simp] theorem State.onMix_ports (s : State) (f : Mix → Mix) : (s.onMix f).ports = s.ports := rfl

/-! ### onCue -/

@[simp] theorem State.onCue_pending (s : State) (f : CueEngine → CueEngine) : (s.onCue f).pending = s.pending := rfl
@[simp] theorem State.onCue_boundaries (s : State) (f : CueEngine → CueEngine) : (s.onCue f).boundaries = s.boundaries := rfl
@[simp] theorem State.onCue_frameOpen (s : State) (f : CueEngine → CueEngine) : (s.onCue f).frameOpen = s.frameOpen := rfl
@[simp] theorem State.onCue_due (s : State) (f : CueEngine → CueEngine) : (s.onCue f).due = s.due := rfl
@[simp] theorem State.onCue_shown (s : State) (f : CueEngine → CueEngine) : (s.onCue f).shown = s.shown := rfl
@[simp] theorem State.onCue_shownPass (s : State) (f : CueEngine → CueEngine) : (s.onCue f).shownPass = s.shownPass := rfl
@[simp] theorem State.onCue_link (s : State) (f : CueEngine → CueEngine) : (s.onCue f).link = s.link := rfl
@[simp] theorem State.onCue_msg (s : State) (f : CueEngine → CueEngine) : (s.onCue f).msg = s.msg := rfl
@[simp] theorem State.onCue_inputs (s : State) (f : CueEngine → CueEngine) : (s.onCue f).inputs = s.inputs := rfl
@[simp] theorem State.onCue_mix (s : State) (f : CueEngine → CueEngine) : (s.onCue f).mix = s.mix := rfl
@[simp] theorem State.onCue_cue (s : State) (f : CueEngine → CueEngine) : (s.onCue f).cue = f s.cue := rfl
@[simp] theorem State.onCue_clip (s : State) (f : CueEngine → CueEngine) : (s.onCue f).clip = s.clip := rfl
@[simp] theorem State.onCue_relay (s : State) (f : CueEngine → CueEngine) : (s.onCue f).relay = s.relay := rfl
@[simp] theorem State.onCue_ports (s : State) (f : CueEngine → CueEngine) : (s.onCue f).ports = s.ports := rfl

/-! ### onClip -/

@[simp] theorem State.onClip_pending (s : State) (f : ClipPlayer → ClipPlayer) : (s.onClip f).pending = s.pending := rfl
@[simp] theorem State.onClip_boundaries (s : State) (f : ClipPlayer → ClipPlayer) : (s.onClip f).boundaries = s.boundaries := rfl
@[simp] theorem State.onClip_frameOpen (s : State) (f : ClipPlayer → ClipPlayer) : (s.onClip f).frameOpen = s.frameOpen := rfl
@[simp] theorem State.onClip_due (s : State) (f : ClipPlayer → ClipPlayer) : (s.onClip f).due = s.due := rfl
@[simp] theorem State.onClip_shown (s : State) (f : ClipPlayer → ClipPlayer) : (s.onClip f).shown = s.shown := rfl
@[simp] theorem State.onClip_shownPass (s : State) (f : ClipPlayer → ClipPlayer) : (s.onClip f).shownPass = s.shownPass := rfl
@[simp] theorem State.onClip_link (s : State) (f : ClipPlayer → ClipPlayer) : (s.onClip f).link = s.link := rfl
@[simp] theorem State.onClip_msg (s : State) (f : ClipPlayer → ClipPlayer) : (s.onClip f).msg = s.msg := rfl
@[simp] theorem State.onClip_inputs (s : State) (f : ClipPlayer → ClipPlayer) : (s.onClip f).inputs = s.inputs := rfl
@[simp] theorem State.onClip_mix (s : State) (f : ClipPlayer → ClipPlayer) : (s.onClip f).mix = s.mix := rfl
@[simp] theorem State.onClip_cue (s : State) (f : ClipPlayer → ClipPlayer) : (s.onClip f).cue = s.cue := rfl
@[simp] theorem State.onClip_clip (s : State) (f : ClipPlayer → ClipPlayer) : (s.onClip f).clip = f s.clip := rfl
@[simp] theorem State.onClip_relay (s : State) (f : ClipPlayer → ClipPlayer) : (s.onClip f).relay = s.relay := rfl
@[simp] theorem State.onClip_ports (s : State) (f : ClipPlayer → ClipPlayer) : (s.onClip f).ports = s.ports := rfl

/-! ### onRelay -/

@[simp] theorem State.onRelay_pending (s : State) (f : Relay → Relay) : (s.onRelay f).pending = s.pending := rfl
@[simp] theorem State.onRelay_boundaries (s : State) (f : Relay → Relay) : (s.onRelay f).boundaries = s.boundaries := rfl
@[simp] theorem State.onRelay_frameOpen (s : State) (f : Relay → Relay) : (s.onRelay f).frameOpen = s.frameOpen := rfl
@[simp] theorem State.onRelay_due (s : State) (f : Relay → Relay) : (s.onRelay f).due = s.due := rfl
@[simp] theorem State.onRelay_shown (s : State) (f : Relay → Relay) : (s.onRelay f).shown = s.shown := rfl
@[simp] theorem State.onRelay_shownPass (s : State) (f : Relay → Relay) : (s.onRelay f).shownPass = s.shownPass := rfl
@[simp] theorem State.onRelay_link (s : State) (f : Relay → Relay) : (s.onRelay f).link = s.link := rfl
@[simp] theorem State.onRelay_msg (s : State) (f : Relay → Relay) : (s.onRelay f).msg = s.msg := rfl
@[simp] theorem State.onRelay_inputs (s : State) (f : Relay → Relay) : (s.onRelay f).inputs = s.inputs := rfl
@[simp] theorem State.onRelay_mix (s : State) (f : Relay → Relay) : (s.onRelay f).mix = s.mix := rfl
@[simp] theorem State.onRelay_cue (s : State) (f : Relay → Relay) : (s.onRelay f).cue = s.cue := rfl
@[simp] theorem State.onRelay_clip (s : State) (f : Relay → Relay) : (s.onRelay f).clip = s.clip := rfl
@[simp] theorem State.onRelay_relay (s : State) (f : Relay → Relay) : (s.onRelay f).relay = f s.relay := rfl
@[simp] theorem State.onRelay_ports (s : State) (f : Relay → Relay) : (s.onRelay f).ports = s.ports := rfl

/-! ### onPorts -/

@[simp] theorem State.onPorts_pending (s : State) (f : Ports → Ports) : (s.onPorts f).pending = s.pending := rfl
@[simp] theorem State.onPorts_boundaries (s : State) (f : Ports → Ports) : (s.onPorts f).boundaries = s.boundaries := rfl
@[simp] theorem State.onPorts_frameOpen (s : State) (f : Ports → Ports) : (s.onPorts f).frameOpen = s.frameOpen := rfl
@[simp] theorem State.onPorts_due (s : State) (f : Ports → Ports) : (s.onPorts f).due = s.due := rfl
@[simp] theorem State.onPorts_shown (s : State) (f : Ports → Ports) : (s.onPorts f).shown = s.shown := rfl
@[simp] theorem State.onPorts_shownPass (s : State) (f : Ports → Ports) : (s.onPorts f).shownPass = s.shownPass := rfl
@[simp] theorem State.onPorts_link (s : State) (f : Ports → Ports) : (s.onPorts f).link = s.link := rfl
@[simp] theorem State.onPorts_msg (s : State) (f : Ports → Ports) : (s.onPorts f).msg = s.msg := rfl
@[simp] theorem State.onPorts_inputs (s : State) (f : Ports → Ports) : (s.onPorts f).inputs = s.inputs := rfl
@[simp] theorem State.onPorts_mix (s : State) (f : Ports → Ports) : (s.onPorts f).mix = s.mix := rfl
@[simp] theorem State.onPorts_cue (s : State) (f : Ports → Ports) : (s.onPorts f).cue = s.cue := rfl
@[simp] theorem State.onPorts_clip (s : State) (f : Ports → Ports) : (s.onPorts f).clip = s.clip := rfl
@[simp] theorem State.onPorts_relay (s : State) (f : Ports → Ports) : (s.onPorts f).relay = s.relay := rfl
@[simp] theorem State.onPorts_ports (s : State) (f : Ports → Ports) : (s.onPorts f).ports = f s.ports := rfl

/-! ### onDue -/

@[simp] theorem State.onDue_pending (s : State) (f : List Item → List Item) : (s.onDue f).pending = s.pending := rfl
@[simp] theorem State.onDue_boundaries (s : State) (f : List Item → List Item) : (s.onDue f).boundaries = s.boundaries := rfl
@[simp] theorem State.onDue_frameOpen (s : State) (f : List Item → List Item) : (s.onDue f).frameOpen = s.frameOpen := rfl
@[simp] theorem State.onDue_due (s : State) (f : List Item → List Item) : (s.onDue f).due = f s.due := rfl
@[simp] theorem State.onDue_shown (s : State) (f : List Item → List Item) : (s.onDue f).shown = s.shown := rfl
@[simp] theorem State.onDue_shownPass (s : State) (f : List Item → List Item) : (s.onDue f).shownPass = s.shownPass := rfl
@[simp] theorem State.onDue_link (s : State) (f : List Item → List Item) : (s.onDue f).link = s.link := rfl
@[simp] theorem State.onDue_msg (s : State) (f : List Item → List Item) : (s.onDue f).msg = s.msg := rfl
@[simp] theorem State.onDue_inputs (s : State) (f : List Item → List Item) : (s.onDue f).inputs = s.inputs := rfl
@[simp] theorem State.onDue_mix (s : State) (f : List Item → List Item) : (s.onDue f).mix = s.mix := rfl
@[simp] theorem State.onDue_cue (s : State) (f : List Item → List Item) : (s.onDue f).cue = s.cue := rfl
@[simp] theorem State.onDue_clip (s : State) (f : List Item → List Item) : (s.onDue f).clip = s.clip := rfl
@[simp] theorem State.onDue_relay (s : State) (f : List Item → List Item) : (s.onDue f).relay = s.relay := rfl
@[simp] theorem State.onDue_ports (s : State) (f : List Item → List Item) : (s.onDue f).ports = s.ports := rfl

/-! ### onInput -/

@[simp] theorem State.onInput_pending (s : State) (i : Fin 64) (f : InputRecord → InputRecord) : (s.onInput i f).pending = s.pending := rfl
@[simp] theorem State.onInput_boundaries (s : State) (i : Fin 64) (f : InputRecord → InputRecord) : (s.onInput i f).boundaries = s.boundaries := rfl
@[simp] theorem State.onInput_frameOpen (s : State) (i : Fin 64) (f : InputRecord → InputRecord) : (s.onInput i f).frameOpen = s.frameOpen := rfl
@[simp] theorem State.onInput_due (s : State) (i : Fin 64) (f : InputRecord → InputRecord) : (s.onInput i f).due = s.due := rfl
@[simp] theorem State.onInput_shown (s : State) (i : Fin 64) (f : InputRecord → InputRecord) : (s.onInput i f).shown = s.shown := rfl
@[simp] theorem State.onInput_shownPass (s : State) (i : Fin 64) (f : InputRecord → InputRecord) : (s.onInput i f).shownPass = s.shownPass := rfl
@[simp] theorem State.onInput_link (s : State) (i : Fin 64) (f : InputRecord → InputRecord) : (s.onInput i f).link = s.link := rfl
@[simp] theorem State.onInput_msg (s : State) (i : Fin 64) (f : InputRecord → InputRecord) : (s.onInput i f).msg = s.msg := rfl
@[simp] theorem State.onInput_inputs (s : State) (i : Fin 64) (f : InputRecord → InputRecord) : (s.onInput i f).inputs = alter s.inputs i f := rfl
@[simp] theorem State.onInput_mix (s : State) (i : Fin 64) (f : InputRecord → InputRecord) : (s.onInput i f).mix = s.mix := rfl
@[simp] theorem State.onInput_cue (s : State) (i : Fin 64) (f : InputRecord → InputRecord) : (s.onInput i f).cue = s.cue := rfl
@[simp] theorem State.onInput_clip (s : State) (i : Fin 64) (f : InputRecord → InputRecord) : (s.onInput i f).clip = s.clip := rfl
@[simp] theorem State.onInput_relay (s : State) (i : Fin 64) (f : InputRecord → InputRecord) : (s.onInput i f).relay = s.relay := rfl
@[simp] theorem State.onInput_ports (s : State) (i : Fin 64) (f : InputRecord → InputRecord) : (s.onInput i f).ports = s.ports := rfl

/-! ### onBus -/

@[simp] theorem State.onBus_pending (s : State) (b : Fin 32) (f : BusRecord → BusRecord) : (s.onBus b f).pending = s.pending := rfl
@[simp] theorem State.onBus_boundaries (s : State) (b : Fin 32) (f : BusRecord → BusRecord) : (s.onBus b f).boundaries = s.boundaries := rfl
@[simp] theorem State.onBus_frameOpen (s : State) (b : Fin 32) (f : BusRecord → BusRecord) : (s.onBus b f).frameOpen = s.frameOpen := rfl
@[simp] theorem State.onBus_due (s : State) (b : Fin 32) (f : BusRecord → BusRecord) : (s.onBus b f).due = s.due := rfl
@[simp] theorem State.onBus_shown (s : State) (b : Fin 32) (f : BusRecord → BusRecord) : (s.onBus b f).shown = s.shown := rfl
@[simp] theorem State.onBus_shownPass (s : State) (b : Fin 32) (f : BusRecord → BusRecord) : (s.onBus b f).shownPass = s.shownPass := rfl
@[simp] theorem State.onBus_link (s : State) (b : Fin 32) (f : BusRecord → BusRecord) : (s.onBus b f).link = s.link := rfl
@[simp] theorem State.onBus_msg (s : State) (b : Fin 32) (f : BusRecord → BusRecord) : (s.onBus b f).msg = s.msg := rfl
@[simp] theorem State.onBus_inputs (s : State) (b : Fin 32) (f : BusRecord → BusRecord) : (s.onBus b f).inputs = s.inputs := rfl
@[simp] theorem State.onBus_mix (s : State) (b : Fin 32) (f : BusRecord → BusRecord) : (s.onBus b f).mix = { s.mix with buses := alter s.mix.buses b f } := rfl
@[simp] theorem State.onBus_cue (s : State) (b : Fin 32) (f : BusRecord → BusRecord) : (s.onBus b f).cue = s.cue := rfl
@[simp] theorem State.onBus_clip (s : State) (b : Fin 32) (f : BusRecord → BusRecord) : (s.onBus b f).clip = s.clip := rfl
@[simp] theorem State.onBus_relay (s : State) (b : Fin 32) (f : BusRecord → BusRecord) : (s.onBus b f).relay = s.relay := rfl
@[simp] theorem State.onBus_ports (s : State) (b : Fin 32) (f : BusRecord → BusRecord) : (s.onBus b f).ports = s.ports := rfl

/-! ### onTalk -/

@[simp] theorem State.onTalk_pending (s : State) (g : Fin 4) (f : TalkGroup → TalkGroup) : (s.onTalk g f).pending = s.pending := rfl
@[simp] theorem State.onTalk_boundaries (s : State) (g : Fin 4) (f : TalkGroup → TalkGroup) : (s.onTalk g f).boundaries = s.boundaries := rfl
@[simp] theorem State.onTalk_frameOpen (s : State) (g : Fin 4) (f : TalkGroup → TalkGroup) : (s.onTalk g f).frameOpen = s.frameOpen := rfl
@[simp] theorem State.onTalk_due (s : State) (g : Fin 4) (f : TalkGroup → TalkGroup) : (s.onTalk g f).due = s.due := rfl
@[simp] theorem State.onTalk_shown (s : State) (g : Fin 4) (f : TalkGroup → TalkGroup) : (s.onTalk g f).shown = s.shown := rfl
@[simp] theorem State.onTalk_shownPass (s : State) (g : Fin 4) (f : TalkGroup → TalkGroup) : (s.onTalk g f).shownPass = s.shownPass := rfl
@[simp] theorem State.onTalk_link (s : State) (g : Fin 4) (f : TalkGroup → TalkGroup) : (s.onTalk g f).link = s.link := rfl
@[simp] theorem State.onTalk_msg (s : State) (g : Fin 4) (f : TalkGroup → TalkGroup) : (s.onTalk g f).msg = s.msg := rfl
@[simp] theorem State.onTalk_inputs (s : State) (g : Fin 4) (f : TalkGroup → TalkGroup) : (s.onTalk g f).inputs = s.inputs := rfl
@[simp] theorem State.onTalk_mix (s : State) (g : Fin 4) (f : TalkGroup → TalkGroup) : (s.onTalk g f).mix = { s.mix with talk := alter s.mix.talk g f } := rfl
@[simp] theorem State.onTalk_cue (s : State) (g : Fin 4) (f : TalkGroup → TalkGroup) : (s.onTalk g f).cue = s.cue := rfl
@[simp] theorem State.onTalk_clip (s : State) (g : Fin 4) (f : TalkGroup → TalkGroup) : (s.onTalk g f).clip = s.clip := rfl
@[simp] theorem State.onTalk_relay (s : State) (g : Fin 4) (f : TalkGroup → TalkGroup) : (s.onTalk g f).relay = s.relay := rfl
@[simp] theorem State.onTalk_ports (s : State) (g : Fin 4) (f : TalkGroup → TalkGroup) : (s.onTalk g f).ports = s.ports := rfl

/-! ### onVoice -/

@[simp] theorem State.onVoice_pending (s : State) (v : Fin 8) (f : Voice → Voice) : (s.onVoice v f).pending = s.pending := rfl
@[simp] theorem State.onVoice_boundaries (s : State) (v : Fin 8) (f : Voice → Voice) : (s.onVoice v f).boundaries = s.boundaries := rfl
@[simp] theorem State.onVoice_frameOpen (s : State) (v : Fin 8) (f : Voice → Voice) : (s.onVoice v f).frameOpen = s.frameOpen := rfl
@[simp] theorem State.onVoice_due (s : State) (v : Fin 8) (f : Voice → Voice) : (s.onVoice v f).due = s.due := rfl
@[simp] theorem State.onVoice_shown (s : State) (v : Fin 8) (f : Voice → Voice) : (s.onVoice v f).shown = s.shown := rfl
@[simp] theorem State.onVoice_shownPass (s : State) (v : Fin 8) (f : Voice → Voice) : (s.onVoice v f).shownPass = s.shownPass := rfl
@[simp] theorem State.onVoice_link (s : State) (v : Fin 8) (f : Voice → Voice) : (s.onVoice v f).link = s.link := rfl
@[simp] theorem State.onVoice_msg (s : State) (v : Fin 8) (f : Voice → Voice) : (s.onVoice v f).msg = s.msg := rfl
@[simp] theorem State.onVoice_inputs (s : State) (v : Fin 8) (f : Voice → Voice) : (s.onVoice v f).inputs = s.inputs := rfl
@[simp] theorem State.onVoice_mix (s : State) (v : Fin 8) (f : Voice → Voice) : (s.onVoice v f).mix = s.mix := rfl
@[simp] theorem State.onVoice_cue (s : State) (v : Fin 8) (f : Voice → Voice) : (s.onVoice v f).cue = s.cue := rfl
@[simp] theorem State.onVoice_clip (s : State) (v : Fin 8) (f : Voice → Voice) : (s.onVoice v f).clip = { s.clip with voices := alter s.clip.voices v f } := rfl
@[simp] theorem State.onVoice_relay (s : State) (v : Fin 8) (f : Voice → Voice) : (s.onVoice v f).relay = s.relay := rfl
@[simp] theorem State.onVoice_ports (s : State) (v : Fin 8) (f : Voice → Voice) : (s.onVoice v f).ports = s.ports := rfl

/-! ### onZone -/

@[simp] theorem State.onZone_pending (s : State) (z : Fin 16) (f : Zone → Zone) : (s.onZone z f).pending = s.pending := rfl
@[simp] theorem State.onZone_boundaries (s : State) (z : Fin 16) (f : Zone → Zone) : (s.onZone z f).boundaries = s.boundaries := rfl
@[simp] theorem State.onZone_frameOpen (s : State) (z : Fin 16) (f : Zone → Zone) : (s.onZone z f).frameOpen = s.frameOpen := rfl
@[simp] theorem State.onZone_due (s : State) (z : Fin 16) (f : Zone → Zone) : (s.onZone z f).due = s.due := rfl
@[simp] theorem State.onZone_shown (s : State) (z : Fin 16) (f : Zone → Zone) : (s.onZone z f).shown = s.shown := rfl
@[simp] theorem State.onZone_shownPass (s : State) (z : Fin 16) (f : Zone → Zone) : (s.onZone z f).shownPass = s.shownPass := rfl
@[simp] theorem State.onZone_link (s : State) (z : Fin 16) (f : Zone → Zone) : (s.onZone z f).link = s.link := rfl
@[simp] theorem State.onZone_msg (s : State) (z : Fin 16) (f : Zone → Zone) : (s.onZone z f).msg = s.msg := rfl
@[simp] theorem State.onZone_inputs (s : State) (z : Fin 16) (f : Zone → Zone) : (s.onZone z f).inputs = s.inputs := rfl
@[simp] theorem State.onZone_mix (s : State) (z : Fin 16) (f : Zone → Zone) : (s.onZone z f).mix = s.mix := rfl
@[simp] theorem State.onZone_cue (s : State) (z : Fin 16) (f : Zone → Zone) : (s.onZone z f).cue = s.cue := rfl
@[simp] theorem State.onZone_clip (s : State) (z : Fin 16) (f : Zone → Zone) : (s.onZone z f).clip = s.clip := rfl
@[simp] theorem State.onZone_relay (s : State) (z : Fin 16) (f : Zone → Zone) : (s.onZone z f).relay = { s.relay with zones := alter s.relay.zones z f } := rfl
@[simp] theorem State.onZone_ports (s : State) (z : Fin 16) (f : Zone → Zone) : (s.onZone z f).ports = s.ports := rfl

/-! ### show -/

@[simp] theorem State.show_pending (s : State) : s.show.pending = s.pending := rfl
@[simp] theorem State.show_boundaries (s : State) : s.show.boundaries = s.boundaries := rfl
@[simp] theorem State.show_frameOpen (s : State) : s.show.frameOpen = s.frameOpen := rfl
@[simp] theorem State.show_due (s : State) : s.show.due = s.due := rfl
@[simp] theorem State.show_shown (s : State) : s.show.shown = s.view := rfl
@[simp] theorem State.show_shownPass (s : State) : s.show.shownPass = s.shownPass := rfl
@[simp] theorem State.show_link (s : State) : s.show.link = s.link := rfl
@[simp] theorem State.show_msg (s : State) : s.show.msg = s.msg := rfl
@[simp] theorem State.show_inputs (s : State) : s.show.inputs = s.inputs := rfl
@[simp] theorem State.show_mix (s : State) : s.show.mix = s.mix := rfl
@[simp] theorem State.show_cue (s : State) : s.show.cue = s.cue := rfl
@[simp] theorem State.show_clip (s : State) : s.show.clip = s.clip := rfl
@[simp] theorem State.show_relay (s : State) : s.show.relay = s.relay := rfl
@[simp] theorem State.show_ports (s : State) : s.show.ports = s.ports := rfl

/-! ### showPass -/

@[simp] theorem State.showPass_pending (s : State) : s.showPass.pending = s.pending := rfl
@[simp] theorem State.showPass_boundaries (s : State) : s.showPass.boundaries = s.boundaries := rfl
@[simp] theorem State.showPass_frameOpen (s : State) : s.showPass.frameOpen = s.frameOpen := rfl
@[simp] theorem State.showPass_due (s : State) : s.showPass.due = s.due := rfl
@[simp] theorem State.showPass_shown (s : State) : s.showPass.shown = s.shown := rfl
@[simp] theorem State.showPass_shownPass (s : State) : s.showPass.shownPass = s.view := rfl
@[simp] theorem State.showPass_link (s : State) : s.showPass.link = s.link := rfl
@[simp] theorem State.showPass_msg (s : State) : s.showPass.msg = s.msg := rfl
@[simp] theorem State.showPass_inputs (s : State) : s.showPass.inputs = s.inputs := rfl
@[simp] theorem State.showPass_mix (s : State) : s.showPass.mix = s.mix := rfl
@[simp] theorem State.showPass_cue (s : State) : s.showPass.cue = s.cue := rfl
@[simp] theorem State.showPass_clip (s : State) : s.showPass.clip = s.clip := rfl
@[simp] theorem State.showPass_relay (s : State) : s.showPass.relay = s.relay := rfl
@[simp] theorem State.showPass_ports (s : State) : s.showPass.ports = s.ports := rfl

/-! ### Tables -/

/-- A table read where an entry was put. -/
@[simp] theorem put_same {α : Type} {n : Nat} (v : Vector α n) (i : Fin n) (x : α) : (put v i x)[i.val] = x := by
  simp [put]

/-- A table read away from where an entry was put. -/
theorem put_other {α : Type} {n : Nat} (v : Vector α n) (i j : Fin n) (x : α) (h : i ≠ j) :
    (put v i x)[j.val] = v[j.val] := by
  have : i.val ≠ j.val := fun e => h (Fin.ext e)
  simp [put, this]

/-- A table read where an entry was changed. -/
@[simp] theorem alter_same {α : Type} {n : Nat} (v : Vector α n) (i : Fin n) (f : α → α) :
    (alter v i f)[i.val] = f v[i.val] := by
  unfold alter
  rw [put_same]
  rfl

/-- A table read away from where an entry was changed. -/
theorem alter_other {α : Type} {n : Nat} (v : Vector α n) (i j : Fin n) (f : α → α) (h : i ≠ j) :
    (alter v i f)[j.val] = v[j.val] := put_other v i j _ h

/-- A table given entry by entry, read. -/
theorem table_get {α : Type} {n : Nat} (f : Fin n → α) (i : Fin n) : (table f)[i.val] = f i := by
  simp [table]

end Sys2Proof.Machine
end

