-- ==== Sys2Proof/Laws/Targets.lean ====
section
/-! SUPPORT. Targets, fades and voices: what each operation does to the set code of every target, to the fade of every target,
and to every voice; and the levels and items the reads are made of. -/

namespace Sys2Proof.Machine

open Sys2Proof

/-! ### Set codes and fades -/

/-- Giving a target its code touches no fade. -/
@[simp] theorem putCode_cue (s : State) (t : Target) (c : LevelCode) : (s.putCode t c).cue = s.cue := by cases t <;> rfl

@[simp] theorem putCode_fadeOf (s : State) (t u : Target) (c : LevelCode) : (s.putCode t c).fadeOf u = s.fadeOf u := by
  simp [State.fadeOf]

/-- A target given a code has it, and every other keeps its own. -/
theorem putCode_setCode (s : State) (t u : Target) (c : LevelCode) :
    (s.putCode t c).setCode u = if u = t then c else s.setCode u := by
  cases t <;> cases u <;> simp [State.putCode, State.setCode]
  case crosspoint.crosspoint i b j d =>
    by_cases h : i = j
    · subst h
      by_cases h2 : b = d
      · subst h2; simp
      · simp [put_other _ _ _ _ h2]; intro e; exact absurd e.symm h2
    · simp [alter_other _ _ _ _ h]; intro e; exact absurd e.symm h
  case busGain.busGain b d =>
    by_cases h : b = d
    · subst h; simp
    · simp [alter_other _ _ _ _ h]; intro e; exact absurd e.symm h
  case zoneLevel.zoneLevel b d =>
    by_cases h : b = d
    · subst h; simp
    · simp [alter_other _ _ _ _ h]; intro e; exact absurd e.symm h
  case voiceGain.voiceGain b d =>
    by_cases h : b = d
    · subst h; simp
    · simp [alter_other _ _ _ _ h]; intro e; exact absurd e.symm h

/-- A table of fades without those of a target, searched. -/
theorem find_without (fs : List Fade) (t u : Target) :
    (fs.filter fun f => f.target != t).find? (fun f => f.target == u)
      = if u = t then none else fs.find? fun f => f.target == u := by
  induction fs with
  | nil => simp
  | cons f fs ih =>
    by_cases h : f.target = t
    · rw [List.filter_cons_of_neg (by simp [h]), ih]
      split
      · rfl
      · next hne => rw [List.find?_cons_of_neg]; simpa [h] using fun e => hne e.symm
    · rw [List.filter_cons_of_pos (by simpa using h)]
      by_cases h2 : f.target = u
      · simp [h2]; intro e; exact h (h2.trans e)
      · rw [List.find?_cons_of_neg (by simpa using h2), ih, List.find?_cons_of_neg (by simpa using h2)]

/-- Dropping the fade of a target leaves every other fade as it is. -/
theorem dropFade_fadeOf (s : State) (t u : Target) : (s.dropFade t).fadeOf u = if u = t then none else s.fadeOf u :=
  find_without s.cue.fades t u

/-- Dropping a fade touches the cue engine alone. -/
@[simp] theorem dropFade_clip (s : State) (t : Target) : (s.dropFade t).clip = s.clip := rfl

@[simp] theorem dropFade_setCode (s : State) (t u : Target) : (s.dropFade t).setCode u = s.setCode u := by
  cases u <;> rfl

@[simp] theorem closeItem_fadeOf (s : State) (it : FollowItem) (u : Target) : (s.closeItem it).fadeOf u = s.fadeOf u := rfl

/-- A fade record found for a target is of that target. -/
theorem fadeOf_target {s : State} {t : Target} {f : Fade} (h : s.fadeOf t = some f) : f.target = t := by
  simpa using List.find?_some h

/-- A fade record taken into the table is the fade of its target, and every other stays as it is. -/
theorem putFade_fadeOf (s : State) (f : Fade) (u : Target) :
    (s.putFade f).fadeOf u = if u = f.target then some f else s.fadeOf u := by
  have hmap : ∀ fs : List Fade, (fs.find? fun g => g.target == f.target).isSome = true →
      (fs.map fun g => if g.target = f.target then f else g).find? (fun g => g.target == u)
        = if u = f.target then some f else fs.find? fun g => g.target == u := by
    intro fs hs
    induction fs with
    | nil => simp at hs
    | cons g gs ih =>
      by_cases hg : g.target = f.target
      · by_cases hu : u = f.target
        · subst hu; simp [hg]
        · rw [List.map_cons, if_pos hg, List.find?_cons_of_neg (by simpa using fun e => hu e.symm),
            List.find?_cons_of_neg (by simpa [hg] using fun e => hu e.symm), if_neg hu]
          clear ih hs
          induction gs with
          | nil => rfl
          | cons k ks ih =>
            by_cases hk : k.target = f.target
            · rw [List.map_cons, if_pos hk, List.find?_cons_of_neg (by simpa using fun e => hu e.symm), ih,
                List.find?_cons_of_neg (by simpa [hk] using fun e => hu e.symm)]
            · rw [List.map_cons, if_neg hk]
              by_cases hku : k.target = u
              · simp [hku]
              · rw [List.find?_cons_of_neg (by simpa using hku), ih, List.find?_cons_of_neg (by simpa using hku)]
      · have hs' : (gs.find? fun g => g.target == f.target).isSome = true := by
          rwa [List.find?_cons_of_neg (by simpa using hg)] at hs
        rw [List.map_cons, if_neg hg]
        by_cases hgu : g.target = u
        · have : u ≠ f.target := fun e => hg (hgu.trans e)
          simp [hgu, this]
        · rw [List.find?_cons_of_neg (by simpa using hgu), ih hs', List.find?_cons_of_neg (by simpa using hgu)]
  cases ho : s.fadeOf f.target with
  | some old =>
    have hs : (s.cue.fades.find? fun g => g.target == f.target).isSome = true := by
      rw [show s.cue.fades.find? (fun g => g.target == f.target) = some old from ho]; rfl
    have h := hmap s.cue.fades hs
    unfold State.putFade
    rw [ho]
    dsimp only
    split
    · rw [putCode_fadeOf]; exact h
    · rw [closeItem_fadeOf, putCode_fadeOf]; exact h
  | none =>
    unfold State.putFade
    rw [ho, putCode_fadeOf]
    simp only [State.fadeOf, State.onCue_cue, List.find?_append]
    by_cases hu : u = f.target
    · subst hu
      rw [show s.cue.fades.find? (fun g => g.target == f.target) = none from ho]
      simp
    · have : [f].find? (fun g => g.target == u) = none := by simpa using fun e => hu e.symm
      rw [this, if_neg hu]; simp

/-! ### Voices -/

/-- A playback that starts on a voice. -/
@[simp] theorem startVoice_voice (s : State) (v : Fin 8) (p : Playback) (g : LevelCode) :
    (s.startVoice v p g).clip.voices[v.val] =
      { state := .playing, playback := some p, position := 0, ending := .none, pending := none, gain := g
        gainEnd := s.clip.voices[v].gainEnd, factorEnd := Config.unity, cutFrom := Config.unity, cutElapsed := 0, ranOut := false } := by
  simp [State.startVoice]

theorem startVoice_other (s : State) (v u : Fin 8) (p : Playback) (g : LevelCode) (h : u ≠ v) :
    (s.startVoice v p g).clip.voices[u.val] = s.clip.voices[u.val] := by
  simp only [State.startVoice, State.onVoice_clip]
  rw [alter_other _ _ _ _ (Ne.symm h)]; rfl

theorem startVoice_fadeOf (s : State) (v : Fin 8) (p : Playback) (g : LevelCode) (u : Target) :
    (s.startVoice v p g).fadeOf u = if u = .voiceGain v then none else s.fadeOf u := dropFade_fadeOf s _ u

/-- The end of a playback reported to its owner touches no voice, no clip and no other block than the cue engine's follow and
the relay controller's reports. -/
theorem reportEnd_keeps (s : State) (v : Fin 8) (p : Playback) (c : EndCause) :
    (s.reportEnd v p c).clip = s.clip ∧ (s.reportEnd v p c).mix = s.mix ∧ (s.reportEnd v p c).inputs = s.inputs
      ∧ (s.reportEnd v p c).msg = s.msg ∧ (s.reportEnd v p c).link = s.link ∧ (s.reportEnd v p c).ports = s.ports
      ∧ (s.reportEnd v p c).due = s.due ∧ (s.reportEnd v p c).relay.calls = s.relay.calls
      ∧ (s.reportEnd v p c).relay.zones = s.relay.zones ∧ (s.reportEnd v p c).cue.fades = s.cue.fades
      ∧ (s.reportEnd v p c).cue.cues = s.cue.cues ∧ (s.reportEnd v p c).cue.standby = s.cue.standby
      ∧ (s.reportEnd v p c).cue.held = s.cue.held := by
  cases h : p.owner <;> simp only [State.reportEnd, h]
  · unfold State.closeVoice; (repeat' split) <;> simp [State.closeItem]
  · simp
  · simp

/-! ### Items of reads -/

/-- Of items of one size, as many fit as the room divided by the size (R177). -/
theorem fitting_const (w : Nat) (hw : 0 < w) (n : Nat) (xs : List (List U8)) (h : ∀ x ∈ xs, x.length = w) :
    fitting n xs = xs.take (n / w) := by
  induction xs generalizing n with
  | nil => simp [fitting]
  | cons x xs ih =>
    simp only [fitting, h x (by simp)]
    split
    · next hle =>
      rw [ih _ (fun y hy => h y (by simp [hy]))]
      obtain ⟨m, rfl⟩ := Nat.exists_eq_add_of_le hle
      have : (w + m) / w = m / w + 1 := by rw [Nat.add_comm, Nat.add_div_right _ hw]
      simp [this]
    · next hle =>
      have : n / w = 0 := Nat.div_eq_of_lt (by omega)
      simp [this]

end Sys2Proof.Machine
end

