-- ==== Sys2Proof/Laws/Follow.lean ====
section
/-! SUPPORT. What closes the open items of a pending follow (R99): for each operation on fades and voices the items it closes, and
how two operations compose. -/

namespace Sys2Proof.Machine

open Sys2Proof

/-- An operation that leaves the follow alone closes nothing. -/
theorem itemsClosed_of_follow {s t : State} (h : t.cue.follow = s.cue.follow) : s.itemsClosed t fun _ _ => false := by
  simp [State.itemsClosed, h]

/-- What two operations in a row close, when what the second closes depends only on the firing of the follow. -/
theorem itemsClosed_trans {s t u : State} {a b : Follow → FollowItem → Bool} (h : s.itemsClosed t a) (k : t.itemsClosed u b)
    (hb : ∀ f l x, b { f with items := l } x = b f x) : s.itemsClosed u fun f x => a f x || b f x := by
  unfold State.itemsClosed at *
  rw [k, h]
  cases s.cue.follow with
  | none => rfl
  | some f => simp [List.filter_filter, hb, Bool.and_comm]

/-- The same items, said otherwise. -/
theorem itemsClosed_congr {s t : State} {a b : Follow → FollowItem → Bool} (h : s.itemsClosed t a)
    (e : ∀ f, s.cue.follow = some f → ∀ x, a f x = b f x) : s.itemsClosed t b := by
  unfold State.itemsClosed at *
  rw [h]
  cases hf : s.cue.follow with
  | none => rfl
  | some f => simp [e f hf]

/-- Closing an item closes it alone. -/
theorem closeItem_closes (s : State) (it : FollowItem) : s.itemsClosed (s.closeItem it) fun _ x => x == it := rfl

/-- Removing the fade of a target closes its item (R99, R106). -/
theorem dropFade_closes (s : State) (t : Target) : s.itemsClosed (s.dropFade t) fun _ x => x == .fade t := rfl

/-- A fade taken into the table closes its target's item when it takes over a record of another firing (R99, R103). -/
theorem putFade_closes (s : State) (f : Fade) :
    s.itemsClosed (s.putFade f) fun _ x => x == .fade f.target && (s.fadeOf f.target).any fun old => old.serial != f.serial := by
  unfold State.putFade
  cases s.fadeOf f.target with
  | none => simp [State.itemsClosed]
  | some old =>
    by_cases h : old.serial = f.serial
    · simp [State.itemsClosed, h]
    · have h' : (old.serial == f.serial) = false := by simpa using h
      simp [State.itemsClosed, State.closeItem, h, h', bne]

/-- The end of a playback of a firing closes the voice's item of its follow when nothing of the firing is left on the voice (R99). -/
theorem closeVoice_closes (s : State) (v : Fin 8) (n : Nat) :
    s.itemsClosed (s.closeVoice v n) fun f x => x == .voice v && f.serial == n && !s.clip.voices[v].counts n := by
  unfold State.itemsClosed State.closeVoice
  cases hf : s.cue.follow with
  | none => simp [hf]
  | some f =>
    dsimp only
    split
    · next h => rw [h.2]; simp [State.closeItem, hf, h.1, bne]
    · next h =>
      have : ∀ x : FollowItem, (x == .voice v && f.serial == n && !s.clip.voices[v].counts n) = false := by
        intro x
        by_cases h1 : f.serial = n
        · have : s.clip.voices[v].counts n = true := by
            cases hc : s.clip.voices[v].counts n
            · exact absurd ⟨h1, hc⟩ h
            · rfl
          rw [this]; simp
        · simp [h1]
      rw [hf, Option.map_some]
      simp only [this, Bool.not_false, List.filter_true]

/-- The report of a playback's end closes the voice's item when the playback is a cue's (R99, R119). -/
theorem reportEnd_closes (s : State) (v : Fin 8) (p : Playback) (c : EndCause) :
    s.itemsClosed (s.reportEnd v p c) fun f x => x == .voice v && p.firedBy f.serial && !s.clip.voices[v].counts f.serial := by
  cases ho : p.owner with
  | cue n =>
    simp only [State.reportEnd, ho]
    refine itemsClosed_congr (closeVoice_closes s v p.serial) fun f _ x => ?_
    by_cases h : f.serial = p.serial
    · simp [Playback.firedBy, ho, h]
    · have h1 : (f.serial == p.serial) = false := by simpa using h
      have h2 : (p.serial == f.serial) = false := by simpa using fun e : p.serial = f.serial => h e.symm
      simp [Playback.firedBy, ho, h1, h2]
  | direct => simp [State.itemsClosed, State.reportEnd, ho, Playback.firedBy]
  | call id => simp [State.itemsClosed, State.reportEnd, ho, Playback.firedBy]

/-- A playback that starts on a voice closes the item of the fade on its gain. -/
theorem startVoice_closes (s : State) (v : Fin 8) (p : Playback) (g : LevelCode) :
    s.itemsClosed (s.startVoice v p g) fun _ x => x == .fade (.voiceGain v) := rfl

/-- A voice that leaves its playback closes the item of the fade that goes with it. -/
theorem leaveVoice_closes (s : State) (v : Fin 8) :
    s.itemsClosed (s.leaveVoice v) fun _ x => x == .fade (.voiceGain v)
      && (s.clip.voices[v].pending.isSome || s.clip.voices[v].ending == .stopFade) := by
  unfold State.leaveVoice
  dsimp only
  generalize s.clip.voices[v] = r
  cases r.pending with
  | none =>
    by_cases he : r.ending = .stopFade
    · rw [if_pos he]; exact itemsClosed_congr (dropFade_closes s (.voiceGain v)) fun _ _ x => by simp [he]
    · rw [if_neg he]; exact itemsClosed_congr (itemsClosed_of_follow rfl) fun _ _ x => by simp [he]
  | some q =>
    refine itemsClosed_congr (a := fun _ x => x == .fade (.voiceGain v)) ?_ fun _ _ x => by simp
    dsimp only
    split
    · exact startVoice_closes s v q.playback q.gain
    · exact startVoice_closes s v q.playback q.gain

/-- A voice that has left its playback counts what its pending start counted. -/
theorem leaveVoice_counts (s : State) (v : Fin 8) (n : Nat) :
    (s.leaveVoice v).clip.voices[v].counts n = s.clip.voices[v].pending.any (·.playback.counts n) := by
  unfold State.leaveVoice
  dsimp only
  generalize s.clip.voices[v].pending = q
  cases q with
  | none => simp [Voice.counts, Voice.toIdle]
  | some q => dsimp only; split <;> simp [Voice.counts]

/-- The end of a playback closes the items that `Voice.endCloses` names (R99, R121, R122). -/
theorem endVoice_closes (s : State) (v : Fin 8) (c : EndCause) :
    s.itemsClosed (s.endVoice v c) (s.clip.voices[v].endCloses v) := by
  have hl := leaveVoice_closes s v
  have hc := leaveVoice_counts s v
  unfold State.endVoice Voice.endCloses
  cases s.clip.voices[v].playback with
  | none => exact itemsClosed_congr hl fun f _ x => by simp
  | some p =>
    refine itemsClosed_congr (itemsClosed_trans hl (reportEnd_closes (s.leaveVoice v) v p c) fun _ _ _ => rfl) fun f _ x => ?_
    rw [hc f.serial]
    rfl

/-- A voice silenced at a boundary closes the item of its fade, and its own when its playback was of the follow's firing (R122). -/
theorem silenceVoice_closes (s : State) (v : Fin 8) (g : Option LevelCode) :
    s.itemsClosed (s.silenceVoice v g) fun f x =>
      x == .fade (.voiceGain v) || (x == .voice v && s.clip.voices[v].playback.any (·.firedBy f.serial)) := by
  unfold State.silenceVoice
  dsimp only
  cases hp : s.clip.voices[v].playback with
  | none => exact itemsClosed_congr (dropFade_closes s (.voiceGain v)) fun f _ x => by simp
  | some p =>
    have hd : s.itemsClosed ((s.dropFade (.voiceGain v)).onVoice v fun r => { r.toIdle with gain := g.getD r.gain })
        fun _ x => x == .fade (.voiceGain v) := dropFade_closes s (.voiceGain v)
    refine itemsClosed_congr (itemsClosed_trans hd (reportEnd_closes _ v p .ended) fun _ _ _ => rfl) fun f _ x => ?_
    simp [Voice.counts, Voice.toIdle]

/-- A PLAY closes the item of the fade on the voice, and the voice's own when it replaces a pending start of the follow's firing and
leaves nothing of that firing there (R99, R121). -/
theorem playVoice_closes (s : State) (v : Fin 8) (p : Playback) (g : LevelCode) :
    s.itemsClosed (s.playVoice v p g) fun f x => x == .fade (.voiceGain v)
      || (x == .voice v && s.clip.voices[v].state != .idle
        && s.clip.voices[v].pending.any (fun q => q.playback.serial == f.serial)
        && !(s.playVoice v p g).clip.voices[v].counts f.serial) := by
  unfold State.playVoice
  split
  · next h =>
    have hi : (s.clip.voices[v].state != VoiceState.idle) = false := by rw [h]; rfl
    exact itemsClosed_congr (startVoice_closes s v p g) fun f _ x => by rw [hi]; simp
  · next h =>
    unfold State.restartVoice
    dsimp only
    cases hp : s.clip.voices[v].pending with
    | none => exact itemsClosed_congr (dropFade_closes s (.voiceGain v)) fun f _ x => by simp
    | some q =>
      refine itemsClosed_congr (itemsClosed_trans (dropFade_closes s (.voiceGain v))
        (closeVoice_closes _ v q.playback.serial) fun _ _ _ => rfl) fun f _ x => ?_
      have hk : ∀ (t : State) n, (t.closeVoice v n).clip = t.clip := by
        intro t n; unfold State.closeVoice; (repeat' split) <;> rfl
      have hi : (s.clip.voices[v].state != VoiceState.idle) = true := by simpa using h
      by_cases hs : f.serial = q.playback.serial
      · rw [hk, hi, hs]; simp
      · have h1 : (f.serial == q.playback.serial) = false := by simpa using hs
        have h2 : (q.playback.serial == f.serial) = false := by simpa using fun e : q.playback.serial = f.serial => hs e.symm
        simp [h1, h2]

/-- A MOVE closes its target's item when it removes or takes over a fade of another firing (R94, R99, R103). -/
theorem move_closes (s : State) (cue n : Nat) (t : Target) (c : LevelCode) (d : Nat) (sh : Shape) :
    s.itemsClosed (s.move cue n t c d sh) fun _ x => x == .fade t
      && (d == 0 || (s.fadeOf t).any fun old => old.serial != n) := by
  have same : ∀ (u w : State) a, s.itemsClosed u a → w.cue.follow = u.cue.follow → s.itemsClosed w a := by
    intro u w a h e; unfold State.itemsClosed at *; rw [e, h]
  have hu : ∀ u : State, (u.unstopTarget t).cue.follow = u.cue.follow := by intro u; cases t <;> rfl
  unfold State.move
  split
  · next h =>
    refine same (s.dropFade t) _ _ (itemsClosed_congr (dropFade_closes s t) fun _ _ x => by simp [h]) ?_
    rw [putCode_cue, hu]
  · next h =>
    have hd : (d == 0) = false := by simpa using h
    split
    · exact same _ _ _ (itemsClosed_congr (putFade_closes s (s.freshFade t sh c d (some cue) n)) fun _ _ x => by
        simp [hd, State.freshFade]) (hu _)
    · next hr =>
      have hn : s.fadeOf t = none := by
        cases ho : s.fadeOf t with
        | none => rfl
        | some f => simp [State.fadeRoom, ho] at hr
      refine same s _ _ (itemsClosed_congr (itemsClosed_of_follow rfl) fun _ _ x => by simp [hd, hn]) ?_
      rw [putCode_cue]; rfl

/-- A write that applies closes the item of the fade on its target (R106). -/
theorem applyEntry_closes (s : State) :
    (∀ i b c, s.itemsClosed (s.applyEntry (.crosspoint i b c)) fun _ x => x == .fade (.crosspoint i b))
      ∧ (∀ b e, s.itemsClosed (s.applyEntry (.bus b e)) fun _ x => x == .fade (.busGain b))
      ∧ (∀ z e, s.itemsClosed (s.applyEntry (.zone z e)) fun _ x => x == .fade (.zoneLevel z))
      ∧ ∀ v c, s.itemsClosed (s.applyEntry (.voice v c)) fun _ x => x == .fade (.voiceGain v) :=
  ⟨fun _ _ _ => rfl, fun _ _ => rfl, fun _ _ => rfl, fun _ _ => rfl⟩

end Sys2Proof.Machine
end

