-- ==== Sys2Proof/Laws/Frame.lean ====
section
/-! SUPPORT. What the work of a boundary leaves alone: the queue of commands, the count of boundaries, the frame being
carried, a node's standing still, the link interface, and what is still due. One lemma for each operation; a statement about
a boundary cites `runItem_still`, `runItem_link` and `settle_due`. -/

namespace Sys2Proof.Machine

open Sys2Proof

/-- What no work of a boundary but forwarding and a show reset touches. -/
def State.frame (s : State) : List Instr × Nat × Bool × Bool × Link × List Item :=
  (s.pending, s.boundaries, s.frameOpen, s.ports.standsStill, s.link, s.due)

/-- What no work of a boundary touches at all. -/
def State.still (s : State) : List Instr × Nat × Bool × Bool :=
  (s.pending, s.boundaries, s.frameOpen, s.ports.standsStill)

theorem frame_iff (s t : State) :
    s.frame = t.frame ↔ s.pending = t.pending ∧ s.boundaries = t.boundaries ∧ s.frameOpen = t.frameOpen
      ∧ s.ports.standsStill = t.ports.standsStill ∧ s.link = t.link ∧ s.due = t.due := by
  simp [State.frame]

theorem still_iff (s t : State) :
    s.still = t.still ↔ s.pending = t.pending ∧ s.boundaries = t.boundaries ∧ s.frameOpen = t.frameOpen
      ∧ s.ports.standsStill = t.ports.standsStill := by
  simp [State.still]

theorem still_of_frame {s t : State} (h : s.frame = t.frame) : s.still = t.still := by
  rw [frame_iff] at h
  rw [still_iff]
  exact ⟨h.1, h.2.1, h.2.2.1, h.2.2.2.1⟩

theorem link_of_frame {s t : State} (h : s.frame = t.frame) : s.link = t.link := ((frame_iff s t).mp h).2.2.2.2.1

theorem due_of_frame {s t : State} (h : s.frame = t.frame) : s.due = t.due := ((frame_iff s t).mp h).2.2.2.2.2

/-- A fold of operations that keep a view of the state keeps it. -/
theorem foldl_keeps {α β : Type} (view : State → β) (f : State → α → State) (hf : ∀ s x, view (f s x) = view s)
    (xs : List α) (s : State) : view (xs.foldl f s) = view s := by
  induction xs generalizing s with
  | nil => rfl
  | cons x xs ih => rw [List.foldl_cons, ih, hf]

/-! ### Updates of one block -/

@[simp] theorem onMsg_frame (s : State) (f : Msg → Msg) : (s.onMsg f).frame = s.frame := rfl
@[simp] theorem onInputs_frame (s : State) (f : Vector InputRecord 64 → Vector InputRecord 64) :
    (s.onInputs f).frame = s.frame := rfl
@[simp] theorem onMix_frame (s : State) (f : Mix → Mix) : (s.onMix f).frame = s.frame := rfl
@[simp] theorem onCue_frame (s : State) (f : CueEngine → CueEngine) : (s.onCue f).frame = s.frame := rfl
@[simp] theorem onClip_frame (s : State) (f : ClipPlayer → ClipPlayer) : (s.onClip f).frame = s.frame := rfl
@[simp] theorem onRelay_frame (s : State) (f : Relay → Relay) : (s.onRelay f).frame = s.frame := rfl
@[simp] theorem show_frame (s : State) : s.show.frame = s.frame := rfl
@[simp] theorem showPass_frame (s : State) : s.showPass.frame = s.frame := rfl
@[simp] theorem onInput_frame (s : State) (i : Fin 64) (f : InputRecord → InputRecord) :
    (s.onInput i f).frame = s.frame := rfl
@[simp] theorem onBus_frame (s : State) (b : Fin 32) (f : BusRecord → BusRecord) : (s.onBus b f).frame = s.frame := rfl
@[simp] theorem onTalk_frame (s : State) (g : Fin 4) (f : TalkGroup → TalkGroup) : (s.onTalk g f).frame = s.frame := rfl
@[simp] theorem onVoice_frame (s : State) (v : Fin 8) (f : Voice → Voice) : (s.onVoice v f).frame = s.frame := rfl
@[simp] theorem onZone_frame (s : State) (z : Fin 16) (f : Zone → Zone) : (s.onZone z f).frame = s.frame := rfl

/-! ### Posts, targets, fades, voices -/

@[simp] theorem post_frame (s : State) (p : Post) : (s.post p).frame = s.frame := rfl
@[simp] theorem postAll_frame (s : State) (ps : List Post) : (s.postAll ps).frame = s.frame :=
  foldl_keeps State.frame State.post (fun s p => post_frame s p) ps s
@[simp] theorem postOnce_frame (s : State) (p : Post) : (s.postOnce p).frame = s.frame := by
  unfold State.postOnce; split <;> simp
@[simp] theorem putCode_frame (s : State) (t : Target) (c : LevelCode) : (s.putCode t c).frame = s.frame := by
  unfold State.putCode; split <;> simp
@[simp] theorem closeItem_frame (s : State) (it : FollowItem) : (s.closeItem it).frame = s.frame := rfl
@[simp] theorem closeVoice_frame (s : State) (v : Fin 8) (n : Nat) : (s.closeVoice v n).frame = s.frame := by
  unfold State.closeVoice; (repeat' split) <;> simp
@[simp] theorem dropFade_frame (s : State) (t : Target) : (s.dropFade t).frame = s.frame := rfl
@[simp] theorem putFade_frame (s : State) (f : Fade) : (s.putFade f).frame = s.frame := by
  unfold State.putFade; split
  · dsimp only; split <;> simp
  · simp
@[simp] theorem hold_frame (s : State) (b : Bool) : (s.hold b).frame = s.frame := by
  unfold State.hold; split <;> simp
@[simp] theorem reportEnd_frame (s : State) (v : Fin 8) (p : Playback) (c : EndCause) :
    (s.reportEnd v p c).frame = s.frame := by
  unfold State.reportEnd; split <;> simp
@[simp] theorem startVoice_frame (s : State) (v : Fin 8) (p : Playback) (g : LevelCode) :
    (s.startVoice v p g).frame = s.frame := rfl
@[simp] theorem restartVoice_frame (s : State) (v : Fin 8) (p : Playback) (g : LevelCode) :
    (s.restartVoice v p g).frame = s.frame := by
  unfold State.restartVoice; dsimp only; split <;> simp
@[simp] theorem playVoice_frame (s : State) (v : Fin 8) (p : Playback) (g : LevelCode) :
    (s.playVoice v p g).frame = s.frame := by
  unfold State.playVoice; split <;> simp
@[simp] theorem silenceVoice_frame (s : State) (v : Fin 8) (g : Option LevelCode) : (s.silenceVoice v g).frame = s.frame := by
  unfold State.silenceVoice; dsimp only; split <;> simp
@[simp] theorem fadeVoiceOut_frame (s : State) (v : Fin 8) (d : Nat) (o : Option Nat) (n : Nat) :
    (s.fadeVoiceOut v d o n).frame = s.frame := by
  unfold State.fadeVoiceOut; (repeat' split) <;> simp
@[simp] theorem stopVoice_frame (s : State) (v : Fin 8) (d : Nat) (o : Option Nat) (n : Nat) :
    (s.stopVoice v d o n).frame = s.frame := by
  unfold State.stopVoice; dsimp only; (repeat' split) <;> simp
@[simp] theorem leaveVoice_frame (s : State) (v : Fin 8) : (s.leaveVoice v).frame = s.frame := by
  unfold State.leaveVoice; dsimp only; (repeat' split) <;> simp
@[simp] theorem endVoice_frame (s : State) (v : Fin 8) (c : EndCause) : (s.endVoice v c).frame = s.frame := by
  unfold State.endVoice; split <;> simp
@[simp] theorem callStart_frame (s : State) (v : Fin 8) (k id : Nat) : (s.callStart v k id).frame = s.frame := rfl
@[simp] theorem callStop_frame (s : State) (v : Fin 8) : (s.callStop v).frame = s.frame := rfl
@[simp] theorem callTake_frame (s : State) (v : Fin 8) (k id : Nat) : (s.callTake v k id).frame = s.frame := by
  unfold State.callTake; dsimp only; split <;> simp
@[simp] theorem takePlace_frame (s : State) (o : Origin) (b : U8) : (s.takePlace o b).2.frame = s.frame := by
  unfold State.takePlace; (repeat' split) <;> simp
@[simp] theorem answer_frame (s : State) (p : Option Nat) (r : Result) : (s.answer p r).frame = s.frame := by
  unfold State.answer; split <;> simp
@[simp] theorem refuse_frame (c : ResultCode) (s : State) : (refuse c s).2.frame = s.frame := rfl

/-! ### Inputs -/

@[simp] theorem takeTransition_frame (s : State) (i : Fin 64) (t : Transition) : (s.takeTransition i t).frame = s.frame := by
  unfold State.takeTransition; split <;> simp
@[simp] theorem countInputs_frame (s : State) : s.countInputs.frame = s.frame := onInputs_frame s _
@[simp] theorem takeTransitions_frame (s : State) : s.takeTransitions.frame = s.frame :=
  foldl_keeps State.frame _ (fun s i => takeTransition_frame s i _) _ s
@[simp] theorem carryInputs_frame (s : State) : s.carryInputs.frame = s.frame := onInputs_frame s _
@[simp] theorem setGates_frame (s : State) : s.setGates.frame = s.frame := onInputs_frame s _
@[simp] theorem clearLossCuts_frame (s : State) : s.clearLossCuts.frame = s.frame := onInputs_frame s _
@[simp] theorem route_frame (s : State) (i : Fin 64) (a b : Option Src) : (s.route i a b).frame = s.frame := onInput_frame s _ _
@[simp] theorem selectInput_frame (i c : U8) (s : State) : (selectInput i c s).2.frame = s.frame := by
  unfold selectInput; dsimp only; (repeat' split) <;> simp

/-! ### Foldback and mix -/

@[simp] theorem applyTalks_frame (s : State) : s.applyTalks.frame = s.frame := by
  unfold State.applyTalks
  rw [onMsg_frame]
  exact foldl_keeps State.frame _ (fun s (x : Fin 4 × Bool) => onTalk_frame s x.1 _) _ s
@[simp] theorem formKeys_frame (s : State) : s.formKeys.frame = s.frame := onMix_frame s _
@[simp] theorem moveBuses_frame (s : State) : s.moveBuses.frame = s.frame := onMix_frame s _
@[simp] theorem talkMessage_frame (g c : U8) (s : State) : (talkMessage g c s).2.frame = s.frame := by
  unfold talkMessage; split <;> simp
@[simp] theorem meterInputs_frame (s : State) : s.meterInputs.frame = s.frame := by
  unfold State.meterInputs; dsimp only; rw [postAll_frame, onInputs_frame]
@[simp] theorem meterBuses_frame (s : State) : s.meterBuses.frame = s.frame := by
  unfold State.meterBuses; dsimp only; rw [postAll_frame, onMix_frame]

/-! ### Relay -/

@[simp] theorem onCall_frame (s : State) (id : Nat) (f : Call → Call) : (s.onCall id f).frame = s.frame := rfl
@[simp] theorem freeZones_frame (s : State) (id : Nat) : (s.freeZones id).frame = s.frame := rfl
@[simp] theorem endCall_frame (s : State) (c : Call) (e : CallEnd) : (s.endCall c e).frame = s.frame := rfl
@[simp] theorem reserveZones_frame (s : State) (id : Nat) : (s.reserveZones id).frame = s.frame := rfl
@[simp] theorem backToWaiting_frame (s : State) (id : Nat) : (s.backToWaiting id).frame = s.frame := rfl
@[simp] theorem acceptCall_frame (s : State) (c : CallSpec) : (s.acceptCall c).frame = s.frame := rfl
@[simp] theorem placeCallMessage_frame (o : Origin) (c : RawCall) (s : State) :
    (placeCallMessage o c s).2.frame = s.frame := by
  unfold placeCallMessage; (repeat' split) <;> simp
@[simp] theorem endOnAir_frame (s : State) (c : Call) : (s.endOnAir c).frame = s.frame := by
  unfold State.endOnAir; dsimp only; split <;> simp
@[simp] theorem takeReport_frame (s : State) (e : EndReport) : (s.takeReport e).frame = s.frame := by
  unfold State.takeReport; (repeat' split) <;> simp
@[simp] theorem countOnAir_frame (s : State) (id : Nat) : (s.countOnAir id).frame = s.frame := by
  unfold State.countOnAir; dsimp only; (repeat' split) <;> simp
@[simp] theorem relayEnds_frame (s : State) : s.relayEnds.frame = s.frame := by
  unfold State.relayEnds
  dsimp only
  rw [foldl_keeps State.frame _ countOnAir_frame, onRelay_frame, foldl_keeps State.frame _ takeReport_frame]
@[simp] theorem tailZones_frame (s : State) (zs : BitVec 16) (v : Fin 8) : (s.tailZones zs v).frame = s.frame := rfl
@[simp] theorem callEnd_frame (id : Nat) (s : State) : (callEnd id s).2.frame = s.frame := by
  unfold callEnd; (repeat' split) <;> simp
@[simp] theorem callCancel_frame (id : Nat) (s : State) : (callCancel id s).2.frame = s.frame := by
  unfold callCancel; dsimp only; (repeat' split) <;> simp
@[simp] theorem takeRelayRequest_frame (s : State) (r : RelayRequest) : (s.takeRelayRequest r).frame = s.frame := by
  unfold State.takeRelayRequest; dsimp only; rw [answer_frame]; split <;> simp
@[simp] theorem relayRequests_frame (s : State) : s.relayRequests.frame = s.frame := by
  unfold State.relayRequests
  rw [foldl_keeps State.frame _ takeRelayRequest_frame, onRelay_frame]
@[simp] theorem takePress_frame (s : State) (z : Fin 16) : (s.takePress z).frame = s.frame := by
  unfold State.takePress; dsimp only; (repeat' split) <;> simp
@[simp] theorem readAckLine_frame (s : State) (z : Fin 16) : (s.readAckLine z).frame = s.frame := by
  unfold State.readAckLine; (repeat' split) <;> simp
@[simp] theorem relayPresses_frame (s : State) : s.relayPresses.frame = s.frame :=
  foldl_keeps State.frame _ readAckLine_frame _ s
@[simp] theorem countAck_frame (s : State) (id : Nat) : (s.countAck id).frame = s.frame := by
  unfold State.countAck; dsimp only; (repeat' split) <;> simp
@[simp] theorem relayAcks_frame (s : State) : s.relayAcks.frame = s.frame := foldl_keeps State.frame _ countAck_frame _ s
@[simp] theorem goOnAir_frame (s : State) (id : Nat) (b : Bool) (v : Option (Fin 8)) :
    (s.goOnAir id b v).frame = s.frame := by
  unfold State.goOnAir; split <;> simp
@[simp] theorem cutCall_frame (s : State) (n : Nat) (zs : BitVec 16) (b : Bool) (c : Call) :
    (s.cutCall n zs b c).frame = s.frame := by
  unfold State.cutCall; dsimp only; (repeat' split) <;> simp
@[simp] theorem dropTails_frame (s : State) (v : Fin 8) : (s.dropTails v).frame = s.frame := rfl
@[simp] theorem stopSpeaks_frame (s : State) (c : Call) (v : Option (Fin 8)) : (s.stopSpeaks c v).frame = s.frame := by
  unfold State.stopSpeaks
  rw [post_frame, hold_frame, goOnAir_frame, foldl_keeps State.frame _ (fun s d => cutCall_frame s _ _ _ d)]
@[simp] theorem giveVoice_frame (s : State) (c : Call) (v : Fin 8) (k : Nat) (b : Bool) :
    (s.giveVoice c v k b).frame = s.frame := by
  unfold State.giveVoice; dsimp only; (repeat' split) <;> simp
@[simp] theorem showStop_frame (s : State) (c : Call) : (s.showStop c).frame = s.frame := by
  unfold State.showStop; (repeat' split) <;> simp
@[simp] theorem relayStops_frame (s : State) : s.relayStops.frame = s.frame := by
  unfold State.relayStops; split <;> simp
@[simp] theorem passCall_frame (s : State) (id : Nat) : (s.passCall id).frame = s.frame := by
  unfold State.passCall; dsimp only; (repeat' split) <;> simp
@[simp] theorem considerCall_frame (s : State) (id : Nat) : (s.considerCall id).frame = s.frame := by
  unfold State.considerCall
  split
  · rfl
  · split
    · rfl
    · rw [foldl_keeps State.frame _ passCall_frame, goOnAir_frame]
@[simp] theorem relaySchedule_frame (s : State) : s.relaySchedule.frame = s.frame :=
  foldl_keeps State.frame _ considerCall_frame _ s
@[simp] theorem countWait_frame (s : State) (id : Nat) : (s.countWait id).frame = s.frame := by
  unfold State.countWait; dsimp only; (repeat' split) <;> simp
@[simp] theorem relayWaits_frame (s : State) : s.relayWaits.frame = s.frame := foldl_keeps State.frame _ countWait_frame _ s
@[simp] theorem relayDucks_frame (s : State) : s.relayDucks.frame = s.frame := onRelay_frame s _
@[simp] theorem speakCall_frame (s : State) (id : Nat) : (s.speakCall id).frame = s.frame := by
  unfold State.speakCall; (repeat' split) <;> simp
@[simp] theorem relaySpeak_frame (s : State) : s.relaySpeak.frame = s.frame := foldl_keeps State.frame _ speakCall_frame _ s
@[simp] theorem relayLamps_frame (s : State) : s.relayLamps.frame = s.frame := by
  unfold State.relayLamps; rw [showPass_frame, onRelay_frame]
@[simp] theorem openPass_frame (s : State) : s.openPass.frame = s.frame := onRelay_frame s _
@[simp] theorem refuseRelayRequests_frame (s : State) : s.refuseRelayRequests.frame = s.frame :=
  foldl_keeps State.frame _ (fun s (r : RelayRequest) => answer_frame s r.place _) _ s

/-! ### Cue engine -/

@[simp] theorem cueStore_frame (c : RawCue) (s : State) : (cueStore c s).2.frame = s.frame := by
  unfold cueStore; dsimp only; (repeat' split) <;> simp
@[simp] theorem cueRemove_frame (n : U32) (s : State) : (cueRemove n s).2.frame = s.frame := by
  unfold cueRemove; dsimp only; (repeat' split) <;> simp
@[simp] theorem cueRead_frame (n : U32) (m : U8) (s : State) : (cueRead n m s).2.frame = s.frame := by
  unfold cueRead; split
  · simp
  · split <;> simp
@[simp] theorem unstopTarget_frame (s : State) (t : Target) : (s.unstopTarget t).frame = s.frame := by
  unfold State.unstopTarget; split <;> simp
@[simp] theorem move_frame (s : State) (cue n : Nat) (t : Target) (c : LevelCode) (d : Nat) (sh : Shape) :
    (s.move cue n t c d sh).frame = s.frame := by
  unfold State.move; (repeat' split) <;> simp
theorem perform_frame {s t : State} {cue n : Nat} {a : Action} (h : s.perform cue n a = .ok t) : t.frame = s.frame := by
  cases a <;> simp only [State.perform] at h
  case move => split at h <;> cases h; simp
  case play => (repeat' split at h) <;> cases h; simp
  case stop => split at h <;> cases h; simp
  case route => split at h <;> cases h; simp
  case call => split at h <;> cases h; simp
@[simp] theorem performAll_frame (cue n k : Nat) (as : List Action) (s : State) :
    (State.performAll cue n k as s).1.frame = s.frame := by
  induction as generalizing k s with
  | nil => rfl
  | cons a as ih =>
    unfold State.performAll
    split
    · next h => rw [ih, perform_frame h]
    · dsimp only; rw [ih, post_frame]
@[simp] theorem fire_frame (s : State) (c : Cue) (a : Arrival) : (s.fire c a).frame = s.frame := by
  unfold State.fire
  dsimp only
  rw [post_frame, onCue_frame, performAll_frame, onCue_frame]
@[simp] theorem refuseGo_frame (s : State) (a : Arrival) (r : GoReason) : (s.refuseGo a r).frame = s.frame := by
  unfold State.refuseGo; split <;> simp
@[simp] theorem guardedFire_frame (s : State) (a : Arrival) (c : Cue) : (s.guardedFire a c).2.frame = s.frame := by
  unfold State.guardedFire; split <;> simp
@[simp] theorem takeGo_frame (s : State) (a : Arrival) (n : Option Nat) : (s.takeGo a n).2.frame = s.frame := by
  unfold State.takeGo; (repeat' split) <;> simp
theorem goPressed_frame (s : State) : (s.onPorts fun p => { p with goPressed := false }).frame = s.frame := rfl
@[simp] theorem takeGoLine_frame (s : State) : s.takeGoLine.frame = s.frame := by
  unfold State.takeGoLine; split
  · rw [takeGo_frame, goPressed_frame]
  · rfl
@[simp] theorem takeStandby_frame (n : U32) (s : State) : (takeStandby n s).2.frame = s.frame := by
  unfold takeStandby; (repeat' split) <;> simp
@[simp] theorem takeHalt_frame (s : State) : (takeHalt s).2.frame = s.frame := hold_frame s false
@[simp] theorem takeResume_frame (s : State) : (takeResume s).2.frame = s.frame := by
  unfold takeResume; (repeat' split) <;> simp
@[simp] theorem expireFollow_frame (s : State) : s.expireFollow.frame = s.frame := by
  unfold State.expireFollow; dsimp only; split <;> simp
@[simp] theorem stepFollow_frame (s : State) : s.stepFollow.frame = s.frame := by
  unfold State.stepFollow; (repeat' split) <;> simp
@[simp] theorem startTiming_frame (s : State) : s.startTiming.frame = s.frame := by
  unfold State.startTiming; (repeat' split) <;> simp
@[simp] theorem completeFade_frame (s : State) (f : Fade) : (s.completeFade f).frame = s.frame := by
  unfold State.completeFade; dsimp only; (repeat' split) <;> simp
@[simp] theorem completeTarget_frame (s : State) (t : Target) : (s.completeTarget t).frame = s.frame := by
  unfold State.completeTarget; (repeat' split) <;> simp
@[simp] theorem completeStops_frame (s : State) : s.completeStops.frame = s.frame :=
  foldl_keeps State.frame _ (fun s (v : Fin 8) => completeTarget_frame s (.voiceGain v)) _ s
@[simp] theorem completeFades_frame (s : State) : s.completeFades.frame = s.frame :=
  foldl_keeps State.frame _ completeTarget_frame _ s
@[simp] theorem resetCues_frame (s : State) : s.resetCues.frame = s.frame := by
  unfold State.resetCues
  rw [onCue_frame]
  exact foldl_keeps State.frame _ (fun s f => putCode_frame s _ _) _ s

/-! ### Clip player -/

@[simp] theorem startCapture_frame (c : U8) (r : RawSource) (n : U32) (s : State) :
    (startCapture c r n s).2.frame = s.frame := by
  unfold startCapture; dsimp only; (repeat' split) <;> simp
@[simp] theorem abortCapture_frame (s : State) (c : Capture) (r : AbortReason) : (s.abortCapture c r).frame = s.frame := rfl
@[simp] theorem abortCaptureMessage_frame (c : U8) (s : State) : (abortCaptureMessage c s).2.frame = s.frame := by
  unfold abortCaptureMessage; (repeat' split) <;> simp
@[simp] theorem removeClip_frame (c : U8) (s : State) : (removeClip c s).2.frame = s.frame := by
  unfold removeClip; dsimp only; (repeat' split) <;> simp
@[simp] theorem completeCapture_frame (s : State) (c : Capture) : (s.completeCapture c).frame = s.frame := rfl
@[simp] theorem storeFrame_frame (s : State) (c : Capture) : (s.storeFrame c).frame = s.frame := rfl
@[simp] theorem stepCapture_frame (s : State) : s.stepCapture.frame = s.frame := by
  unfold State.stepCapture; (repeat' split) <;> simp
@[simp] theorem lossToCapture_frame (s : State) : s.lossToCapture.frame = s.frame := by
  unfold State.lossToCapture; (repeat' split) <;> simp
@[simp] theorem voicePlay_frame (v c : U8) (g : U16) (l : U8) (s : State) : (voicePlay v c g l s).2.frame = s.frame := by
  unfold voicePlay; dsimp only; (repeat' split) <;> simp
@[simp] theorem voiceStop_frame (v : U8) (d : U32) (s : State) : (voiceStop v d s).2.frame = s.frame := by
  unfold voiceStop; dsimp only; (repeat' split) <;> simp
@[simp] theorem endIfOver_frame (s : State) (v : Fin 8) : (s.endIfOver v).frame = s.frame := by
  unfold State.endIfOver; dsimp only; split <;> simp
@[simp] theorem endPlaybacks_frame (s : State) : s.endPlaybacks.frame = s.frame :=
  foldl_keeps State.frame _ endIfOver_frame _ s
@[simp] theorem takeReserve_frame (s : State) : s.takeReserve.frame = s.frame := by
  unfold State.takeReserve; split <;> simp
@[simp] theorem pauseVoices_frame (s : State) : s.pauseVoices.frame = s.frame := by
  unfold State.pauseVoices; split <;> simp
@[simp] theorem resetVoices_frame (s : State) : s.resetVoices.frame = s.frame := by
  unfold State.resetVoices; simp

/-! ### Tables and reads -/

@[simp] theorem acceptEntries_frame (es : List TableEntry) (ps : List (List U8)) (s : State) :
    (acceptEntries es ps s).2.frame = s.frame := by
  unfold acceptEntries; dsimp only; (repeat' split) <;> simp
@[simp] theorem writeTable_frame {α : Type} (n : Nat) (first : U8) (es : List α) (check : Fin n → α → Option TableEntry)
    (prior : State → Fin n → List U8) (s : State) : (writeTable n first es check prior s).2.frame = s.frame := by
  unfold writeTable; dsimp only; (repeat' split) <;> simp
@[simp] theorem writeCrosspoint_frame (w : RawWindow) (cs : List U16) (s : State) :
    (writeCrosspoint w cs s).2.frame = s.frame := by
  unfold writeCrosspoint; split <;> simp
@[simp] theorem applyEntry_frame (s : State) (e : TableEntry) : (s.applyEntry e).frame = s.frame := by
  cases e <;> simp [State.applyEntry]
@[simp] theorem applyAccepted_frame (s : State) (a : Accepted) : (s.applyAccepted a).frame = s.frame := by
  cases a <;> simp [State.applyAccepted]
@[simp] theorem applyThose_frame (s : State) (f : Accepted → Bool) : (s.applyThose f).frame = s.frame := by
  unfold State.applyThose
  rw [onMsg_frame, foldl_keeps State.frame _ applyAccepted_frame]
@[simp] theorem applyNode_frame (s : State) : s.applyNode.frame = s.frame := applyThose_frame s _
@[simp] theorem applyVoiceWrites_frame (s : State) : s.applyVoiceWrites.frame = s.frame := applyThose_frame s _
@[simp] theorem applyWrites_frame (s : State) : s.applyWrites.frame = s.frame := applyThose_frame s _
@[simp] theorem latePosts_frame (s : State) : s.latePosts.frame = s.frame := rfl
@[simp] theorem clearMeters_frame (s : State) (a n : Nat) : (s.clearMeters a n).frame = s.frame := by
  simp [frame_iff, State.clearMeters]
@[simp] theorem readMeter_frame (a n : U8) (s : State) : (readMeter a n s).2.frame = s.frame := by
  unfold readMeter; dsimp only; split <;> simp
@[simp] theorem readTable_frame (t : U8) (p : ReadPlace) (s : State) : (readTable t p s).2.frame = s.frame := by
  unfold readTable; (repeat' split) <;> simp
@[simp] theorem holdMessage_frame (m : U8) (s : State) : (holdMessage m s).2.frame = s.frame := by
  unfold holdMessage
  split
  · unfold holdOn; split <;> simp
  · split
    · unfold holdApply; split <;> simp
    · split
      · unfold holdDiscard; split <;> simp
      · simp
@[simp] theorem timeOutHold_frame (s : State) : s.timeOutHold.frame = s.frame := rfl
@[simp] theorem ageHold_frame (s : State) : s.ageHold.frame = s.frame := by
  unfold State.ageHold; (repeat' split) <;> simp
@[simp] theorem rangeStatus_state {n : Nat} (item : State → Fin n → List U8) (a k : U8) (s : State) :
    (rangeStatus n item a k s).2 = s := by
  unfold rangeStatus; dsimp only; split <;> rfl
/-- STATUS READ changes nothing (R186). -/
@[simp] theorem readStatus_state (p a n : U8) (s : State) : (readStatus p a n s).2 = s := by
  unfold readStatus; (repeat' split) <;> (first | exact rangeStatus_state _ _ _ _ | rfl)

/-! ### Messages -/

@[simp] theorem fetchEvents_frame (m : U8) (s : State) : (fetchEvents m s).2.frame = s.frame := by
  simp [fetchEvents]
@[simp] theorem clearFlags_frame (f : U64) (s : State) : (clearFlags f s).2.frame = s.frame := by
  simp [frame_iff, clearFlags]
@[simp] theorem settleNow_frame (o : Origin) (r : Request) (s : State) : (settleNow o r s).2.frame = s.frame := by
  cases r
  case writeInput => exact writeTable_frame _ _ _ _ _ s
  case writeCrosspoint => exact writeCrosspoint_frame _ _ s
  case writeBus => exact writeTable_frame _ _ _ _ _ s
  case writeOutput => exact writeTable_frame _ _ _ _ _ s
  case writeZone => exact writeTable_frame _ _ _ _ _ s
  case writeTalk => exact writeTable_frame _ _ _ _ _ s
  case writeVoice => exact writeTable_frame _ _ _ _ _ s
  case writeNode => exact writeTable_frame _ _ _ _ _ s
  case read => exact readTable_frame _ _ s
  case readMeter => exact readMeter_frame _ _ s
  case hold => exact holdMessage_frame _ s
  case cueStore => exact cueStore_frame _ s
  case cueRemove => exact cueRemove_frame _ s
  case cueRead => exact cueRead_frame _ _ s
  case callPlace => exact placeCallMessage_frame _ _ s
  case talk => exact talkMessage_frame _ _ s
  case inputSelect => exact selectInput_frame _ _ s
  case capture => exact startCapture_frame _ _ _ s
  case captureAbort => exact abortCaptureMessage_frame _ s
  case clipRemove => exact removeClip_frame _ s
  case status part first count => exact congrArg State.frame (readStatus_state part first count s)
  case eventFetch => exact fetchEvents_frame _ s
  case flagsClear => exact clearFlags_frame _ s
  all_goals exact refuse_frame _ s
@[simp] theorem takeRequest_frame (o : Origin) (r : Request) (s : State) : (takeRequest o r s).2.frame = s.frame := by
  cases r
  case go => exact takeGo_frame s _ _
  case standby => exact takeStandby_frame _ s
  case halt => exact takeHalt_frame s
  case resume => exact takeResume_frame s
  case voicePlay => exact voicePlay_frame _ _ _ _ s
  case voiceStop => exact voiceStop_frame _ _ s
  all_goals rfl
@[simp] theorem takeWaiting_frame (s : State) (w : Waiting) : (s.takeWaiting w).frame = s.frame := by
  unfold State.takeWaiting; dsimp only; rw [answer_frame, takeRequest_frame]
@[simp] theorem takeRequests_frame (s : State) : s.takeRequests.frame = s.frame := by
  unfold State.takeRequests
  rw [foldl_keeps State.frame _ takeWaiting_frame, onMsg_frame]
@[simp] theorem handOver_frame (s : State) (o : Origin) (p : Option Nat) (r : Request) :
    (s.handOver o p r).frame = s.frame := by
  unfold State.handOver; split <;> simp
@[simp] theorem complete_frame (s : State) (o : Origin) (b : List U8) : (s.complete o b).frame = s.frame := by
  unfold State.complete
  have h := takePlace_frame s o (b.headD 0)
  split
  · next e => rw [e] at h; exact h
  · next e => rw [e] at h; exact h
@[simp] theorem executeCompleted_frame (s : State) : s.executeCompleted.frame = s.frame := by
  unfold State.executeCompleted; dsimp only; (repeat' split) <;> simp
@[simp] theorem warmReset_frame (s : State) : s.warmReset.frame = s.frame := by
  simp [frame_iff, State.warmReset, State.clearMetersAndFlags]
@[simp] theorem answerReset_frame (s : State) (w : Waiting) : (s.answerReset w).frame = s.frame := by
  unfold State.answerReset; (repeat' split) <;> simp
@[simp] theorem discardPartial_frame (s : State) (r : FragmentReason) : (s.discardPartial r).frame = s.frame := by
  unfold State.discardPartial; split <;> simp
@[simp] theorem advance_frame (s : State) (c : Cell) (p : Partial) : (s.advance c p).frame = s.frame := by
  unfold State.advance; split <;> simp
@[simp] theorem overlong_frame (s : State) (p : Partial) : (s.overlong p).frame = s.frame := by
  unfold State.overlong
  split
  · next tag _ =>
    have h := takePlace_frame (s.onMsg fun m => { m with assembler := none }) (.addressed tag) (p.body.headD 0)
    split
    · next e => rw [e] at h; rw [answer_frame]; exact h
    · next e => rw [e] at h; exact h
  · simp
@[simp] theorem continueMessage_frame (s : State) (c : Cell) (p : Partial) : (s.continueMessage c p).frame = s.frame := by
  unfold State.continueMessage; (repeat' split) <;> simp
@[simp] theorem assemble_frame (s : State) (c : Cell) : (s.assemble c).frame = s.frame := by
  unfold State.assemble; (repeat' split) <;> simp
@[simp] theorem takeCell_frame (s : State) : s.takeCell.frame = s.frame := by
  unfold State.takeCell; (repeat' split) <;> simp
@[simp] theorem lossToAssembler_frame (s : State) : s.lossToAssembler.frame = s.frame := discardPartial_frame s _
@[simp] theorem warmResets_frame (s : State) : s.warmResets.frame = s.frame := by
  unfold State.warmResets
  rw [foldl_keeps State.frame _ (fun s (w : Waiting) => show (s.takeWarmReset w).frame = s.frame by
    unfold State.takeWarmReset; rw [answerReset_frame, warmReset_frame]), onMsg_frame]
@[simp] theorem placeAnswer_frame (s : State) (b : Bool) (c : Cell) : (s.placeAnswer b c).2.frame = s.frame := by
  unfold State.placeAnswer; (repeat' split) <;> simp

@[simp] theorem postArrival_frame (s : State) : s.postArrival.frame = s.frame := by
  unfold State.postArrival; (repeat' split) <;> simp
@[simp] theorem postLoss_frame (s : State) : s.postLoss.frame = s.frame := post_frame s _

/-! ### Lines -/

theorem takeLine_standsStill (p : Ports) (l : LineId) : (p.takeLine l).standsStill = p.standsStill := by
  cases l <;> rfl
theorem takeLines_standsStill (ls : List LineId) (p : Ports) : (ls.foldl Ports.takeLine p).standsStill = p.standsStill := by
  induction ls generalizing p with
  | nil => rfl
  | cons l ls ih => rw [List.foldl_cons, ih, takeLine_standsStill]
@[simp] theorem takeLevels_frame (s : State) : s.takeLevels.frame = s.frame := by
  simp [frame_iff, State.takeLevels, takeLines_standsStill]
@[simp] theorem driveOutputs_frame (s : State) : s.driveOutputs.frame = s.frame := by
  simp [frame_iff, State.driveOutputs]

/-! ### The two that touch more, and the items -/

/-- A show reset takes the items of the relay pass off what is due, and touches no other part of the frame. -/
theorem resetCalls_frame (s : State) :
    s.resetCalls.still = s.still ∧ s.resetCalls.link = s.link
      ∧ s.resetCalls.due = s.due.filter fun it => !isRelayItem it := by
  have h := (frame_iff _ _).mp (refuseRelayRequests_frame s)
  unfold State.resetCalls
  simp [still_iff, h.1, h.2.1, h.2.2.1, h.2.2.2.1, h.2.2.2.2.1, h.2.2.2.2.2]

/-- A show RESET touches of the frame at most the relay items due. -/
theorem takeShowReset_frame (s : State) (w : Waiting) :
    (s.takeShowReset w).still = s.still ∧ (s.takeShowReset w).link = s.link
      ∧ (s.takeShowReset w).due = s.due.filter fun it => !isRelayItem it := by
  obtain ⟨g1, g2, g3⟩ := resetCalls_frame s.resetCues.resetVoices
  have hf : s.resetCues.resetVoices.frame = s.frame := by simp
  have hp : (s.takeShowReset w).frame = s.resetCues.resetVoices.resetCalls.frame := by
    unfold State.takeShowReset State.showReset; simp
  exact ⟨((still_of_frame hp).trans g1).trans (still_of_frame hf), ((link_of_frame hp).trans g2).trans (link_of_frame hf)
    , by rw [due_of_frame hp, g3, due_of_frame hf]⟩

theorem showResets_frame (s : State) :
    s.showResets.still = s.still ∧ s.showResets.link = s.link ∧ ∀ it, it ∈ s.showResets.due → it ∈ s.due := by
  unfold State.showResets
  suffices h : ∀ (ws : List Waiting) (t : State), (ws.foldl State.takeShowReset t).still = t.still
      ∧ (ws.foldl State.takeShowReset t).link = t.link ∧ ∀ it, it ∈ (ws.foldl State.takeShowReset t).due → it ∈ t.due by
    exact h _ _
  intro ws
  induction ws with
  | nil => exact fun t => ⟨rfl, rfl, fun _ h => h⟩
  | cons w ws ih =>
    intro t
    obtain ⟨a1, a2, a3⟩ := ih (t.takeShowReset w)
    obtain ⟨b1, b2, b3⟩ := takeShowReset_frame t w
    exact ⟨a1.trans b1, a2.trans b2, fun it h => (List.mem_filter.mp (b3 ▸ a3 it h)).1⟩

/-- Forwarding changes of the frame only what the link has sent. -/
theorem forward_frame (s : State) :
    s.forward.still = s.still ∧ s.forward.due = s.due ∧ { s.forward.link with sent := s.link.sent } = s.link := by
  unfold State.forward
  split
  · dsimp only
    have h := (frame_iff _ _).mp (placeAnswer_frame s (s.link.checked && !Frame.damaged ‹Frame›) (Frame.answer ‹Frame›))
    refine ⟨?_, h.2.2.2.2.2, ?_⟩
    · exact (still_iff _ _).mpr ⟨h.1, h.2.1, h.2.2.1, h.2.2.2.1⟩
    · simp only [State.onLink_link, h.2.2.2.2.1]
  · exact ⟨rfl, rfl, rfl⟩

/-- Work run once touches of the frame only what is due, if it touches nothing of it by itself. -/
theorem runOnce_frame (s : State) (it : Item) (work : State → State) (h : ∀ t : State, (work t).frame = t.frame) :
    (s.runOnce it work).still = s.still ∧ (s.runOnce it work).link = s.link
      ∧ ∀ x, x ∈ (s.runOnce it work).due → x ∈ s.due := by
  unfold State.runOnce
  split
  · refine ⟨(still_of_frame (h _)).trans rfl, (link_of_frame (h _)).trans rfl, fun x hx => ?_⟩
    rw [due_of_frame (h _)] at hx
    exact (List.mem_filter.mp hx).1
  · exact ⟨rfl, rfl, fun _ hx => hx⟩

/-- The meters of a frame touch of it only what is due. -/
theorem takeMeters_frame (s : State) :
    s.takeMeters.still = s.still ∧ s.takeMeters.link = s.link ∧ ∀ x, x ∈ s.takeMeters.due → x ∈ s.due := by
  unfold State.takeMeters
  dsimp only
  generalize hg : s.onMsg (fun m => { m with late := m.frameLate, frameLate := [] }) = g
  have h0 : g.frame = s.frame := by rw [← hg]; rfl
  obtain ⟨a1, a2, a3⟩ := runOnce_frame g .inputMeters _ meterInputs_frame
  obtain ⟨b1, b2, b3⟩ := runOnce_frame (g.runOnce .inputMeters State.meterInputs) .busMeters _ meterBuses_frame
  have h1 := latePosts_frame ((g.runOnce .inputMeters State.meterInputs).runOnce .busMeters State.meterBuses)
  exact ⟨(((still_of_frame h1).trans b1).trans a1).trans (still_of_frame h0)
    , (((link_of_frame h1).trans b2).trans a2).trans (link_of_frame h0)
    , fun x hx => due_of_frame h0 ▸ a3 x (b3 x (due_of_frame h1 ▸ hx))⟩

/-- An item other than forwarding, the show resets and the meters together touches nothing of the frame. -/
theorem runItem_frame (it : Item) (s : State) (h1 : it ≠ .forward) (h2 : it ≠ .showReset) (h3 : it ≠ .meters) :
    (runItem it s).frame = s.frame := by
  cases it <;> simp_all [runItem]

/-- No item touches the queue, the count of boundaries, the frame being carried or the standing still. -/
@[simp] theorem runItem_still (it : Item) (s : State) : (runItem it s).still = s.still := by
  by_cases h1 : it = .forward
  · subst h1; exact (forward_frame s).1
  · by_cases h2 : it = .showReset
    · subst h2; exact (showResets_frame s).1
    · by_cases h3 : it = .meters
      · subst h3; exact (takeMeters_frame s).1
      · exact still_of_frame (runItem_frame it s h1 h2 h3)

/-- An item other than forwarding leaves the link interface alone. -/
theorem runItem_link (it : Item) (s : State) (h : it ≠ .forward) : (runItem it s).link = s.link := by
  by_cases h2 : it = .showReset
  · subst h2; exact (showResets_frame s).2.1
  · by_cases h3 : it = .meters
    · subst h3; exact (takeMeters_frame s).2.1
    · exact link_of_frame (runItem_frame it s h h2 h3)

/-- An item adds nothing to what is due. -/
theorem runItem_due (it : Item) (s : State) (x : Item) (h : x ∈ (runItem it s).due) : x ∈ s.due := by
  by_cases h1 : it = .forward
  · subst h1; rw [show runItem .forward s = s.forward from rfl, (forward_frame s).2.1] at h; exact h
  · by_cases h2 : it = .showReset
    · subst h2; exact (showResets_frame s).2.2 x h
    · by_cases h3 : it = .meters
      · subst h3; exact (takeMeters_frame s).2.2 x h
      · rw [due_of_frame (runItem_frame it s h1 h2 h3)] at h; exact h

/-! ### Taking items -/

@[simp] theorem runDue_still (s : State) (it : Item) : (s.runDue it).still = s.still := by
  unfold State.runDue State.runOnce; split
  · rw [runItem_still]; rfl
  · rfl
@[simp] theorem ready_still (s : State) (it : Item) : (s.ready it).still = s.still :=
  foldl_keeps State.still _ runDue_still _ s
@[simp] theorem takeItem_still (s : State) (it : Item) : (s.takeItem it).still = s.still := by
  unfold State.takeItem; split <;> simp
@[simp] theorem settle_still (s : State) : s.settle.still = s.still := foldl_keeps State.still _ runDue_still _ s
@[simp] theorem work_still (s : State) (env : Env) : (s.work env).still = s.still := by
  unfold State.work
  dsimp only
  split
  · rw [settle_still]; exact foldl_keeps State.still _ takeItem_still _ s
  · exact foldl_keeps State.still _ takeItem_still _ s

/-- What an item being taken leaves due was due before, and is not the item. -/
theorem runDue_due (s : State) (it x : Item) (h : x ∈ (s.runDue it).due) : x ∈ s.due ∧ x ≠ it := by
  unfold State.runDue State.runOnce at h
  split at h
  · have hx := runItem_due it _ x h
    simp only [State.onDue_due, List.mem_filter, bne_iff_ne, ne_eq] at hx
    exact hx
  · next hd =>
    refine ⟨h, ?_⟩
    rintro rfl
    simp only [State.isDue, List.contains_eq_mem, decide_eq_true_eq] at hd
    exact hd h

/-- What a run of items leaves due was due before, and is none of them. -/
theorem foldl_runDue_due (its : List Item) (s : State) (x : Item) (h : x ∈ (its.foldl State.runDue s).due) :
    x ∈ s.due ∧ x ∉ its := by
  induction its generalizing s with
  | nil => exact ⟨h, by simp⟩
  | cons it its ih =>
    obtain ⟨a, b⟩ := ih (s.runDue it) h
    obtain ⟨c, d⟩ := runDue_due s it x a
    exact ⟨c, by simp [b, d]⟩

/-- After the work of a boundary is settled, only the meters of its frame can still be due. -/
theorem settle_due (s : State) (x : Item) (h : x ∈ s.settle.due) : isMeter x = true := by
  obtain ⟨a, b⟩ := foldl_runDue_due _ s x h
  by_contra hx
  exact b (List.mem_filter.mpr ⟨a, by simpa using hx⟩)

/-- A node between boundaries has nothing to settle. -/
theorem settle_between (s : State) (h : ∀ it ∈ s.due, isMeter it = true) : s.settle = s := by
  unfold State.settle
  rw [List.filter_eq_nil_iff.mpr fun x hx => by simp [h x hx]]
  rfl

/-- An item whose predecessors have been taken has nothing to wait for. -/
theorem ready_of_none (s : State) (it : Item) (h : ∀ x ∈ s.due, x ∉ needs it) : s.ready it = s := by
  have : (s.due.filter fun x => (needs it).contains x) = [] := by
    apply List.filter_eq_nil_iff.mpr
    intro x hx
    simpa using h x hx
  unfold State.ready
  rw [this]
  rfl

end Sys2Proof.Machine
end

