-- ==== Sys2Proof/Laws/Messages.lean ====
section
/-! SUPPORT. What a message command does, said once: it takes a place, its owner answers, and the answer stands in that place;
and what a step inside a boundary does when it is next. A statement about one message cites these and says only what the owner
does. -/

namespace Sys2Proof.Machine

open Sys2Proof

/-! ### Places and answers -/

/-- Taking a place for a message that is heard: the message controller has placed it (R176). -/
theorem takePlace_hears {s : State} {o : Origin} (h : s.hears o) (b : U8) :
    s.takePlace o b = (some (s.msg.placeOf o), s.onMsg fun m => m.placed o) := by
  obtain ⟨-, hp, -⟩ := h
  cases o with
  | addressed tag => simp only [State.takePlace, hp tag rfl, if_true]; rfl
  | group a => rfl
  | broadcast => rfl

/-- An answer written over replies none of which has the place changes none of them. -/
theorem map_answer_of_fresh (rs : List Reply) (p n : Nat) (b : List U8) (h : ∀ r ∈ rs, r.place < p) :
    (rs.map fun q => if q.place = p then { q with body := some b, completedAt := n } else q) = rs := by
  induction rs with
  | nil => rfl
  | cons r rs ih =>
    rw [List.map_cons, ih fun q hq => h q (List.mem_cons_of_mem _ hq), if_neg]
    exact Nat.ne_of_lt (h r List.mem_cons_self)

/-- The answer to a message that has just been placed is the reply that `replied` leaves. -/
theorem answer_placed (s t : State) (o : Origin) (r : Result) (h : s.placesFresh) (hr : t.msg.replies = s.msg.replies)
    (hn : t.msg.nextPlace = s.msg.nextPlace) :
    (t.onMsg fun m => m.placed o).answer (s.msg.placeOf o) r = t.replied o r := by
  cases o with
  | addressed tag =>
    have hf : ∀ q ∈ t.msg.replies, q.place < t.msg.nextPlace := by rw [hr, hn]; exact h
    simp only [State.answer, Msg.placeOf, State.onMsg, Msg.placed, State.replied, Msg.replied, List.map_append]
    rw [← hn, map_answer_of_fresh _ _ _ _ hf]
    simp
  | group a => rfl
  | broadcast => rfl

/-! ### Messages settled at execution -/

/-- A message settled at execution that is heard between boundaries: what its owner does to the state in which it is placed, and
the owner's answer in its place (R175). -/
theorem messageNow_placed {s : State} {o : Origin} {r : Request} (hb : s.between) (hh : s.hears o)
    (hd : dropped o r = false) (hs : settling r = .now) :
    s.messageNow o r = (settleNow o r (s.onMsg fun m => m.placed o)).2.answer (s.msg.placeOf o)
      (settleNow o r (s.onMsg fun m => m.placed o)).1 := by
  unfold State.messageNow
  dsimp only
  rw [settle_between s hb.2, hh.1, hd, takePlace_hears hh]
  simp [State.handOver, hs]

/-- The same, for an owner that works alike before and after the message is placed: what it does to the state as it was, and the
reply. -/
theorem messageNow_replied {s t : State} {o : Origin} {r : Request} {res : Result} (hb : s.between) (hh : s.hears o)
    (hd : dropped o r = false) (hs : settling r = .now)
    (hset : settleNow o r (s.onMsg fun m => m.placed o) = (res, t.onMsg fun m => m.placed o))
    (hr : t.msg.replies = s.msg.replies) (hn : t.msg.nextPlace = s.msg.nextPlace) :
    s.messageNow o r = t.replied o res := by
  rw [messageNow_placed hb hh hd hs, hset]
  exact answer_placed s t o res hh.2.2 hr hn

/-- A message that its kind drops for a group or for broadcast changes nothing (R175 step 4). -/
theorem messageNow_dropped {s : State} {o : Origin} {r : Request} (hb : s.between) (hd : dropped o r = true) :
    s.messageNow o r = s := by
  simp [State.messageNow, settle_between s hb.2, hd]

/-! ### Messages taken at a boundary -/

/-- A message taken at a boundary that comes between boundaries takes its place and is handed over to wait. -/
theorem messageAt_between {s : State} {it : Item} {o : Origin} {r : Request} {take : Option Nat → State → State}
    (hb : s.between) (hh : s.hears o) (hm : isMeter it = false) :
    s.messageAt it o r take = (s.onMsg fun m => m.placed o).handOver o (s.msg.placeOf o) r := by
  have hd : s.isDue it = false := by
    simp only [State.isDue, List.contains_eq_mem, decide_eq_false_iff_not]
    intro h
    exact absurd (hb.2 it h) (by simp [hm])
  unfold State.messageAt
  simp [hd, settle_between s hb.2, hh.1, takePlace_hears hh]

/-- A message taken at a boundary that comes while its owner's item is next is taken there and then, when nothing waits there
before it. -/
theorem messageAt_atItem {s : State} {it : Item} {o : Origin} {r : Request} {take : Option Nat → State → State}
    (ha : s.atItem it) (hw : runItem it s = s) (hh : s.hears o) :
    s.messageAt it o r take = take (s.msg.placeOf o) (s.onMsg fun m => m.placed o) := by
  have hd : s.isDue it = true := by simpa [State.isDue] using ha.2.1
  unfold State.messageAt
  simp [hd, ready_of_none s it ha.2.2, hw, hh.1, takePlace_hears hh]

/-- Nothing is taken where no request waits. -/
theorem takeRequests_none (s : State) (h : s.msg.waiting = []) : runItem .requests s = s := by
  show s.takeRequests = s
  unfold State.takeRequests
  rw [h]
  show { s with msg := { s.msg with waiting := [] } } = s
  rw [← h]

/-- Nothing is taken where no CALL END and no CALL CANCEL waits. -/
theorem relayRequests_none (s : State) (h : s.relay.requests = []) : runItem .relayRequests s = s := by
  show s.relayRequests = s
  unfold State.relayRequests
  rw [h]
  show { s with relay := { s.relay with requests := [] } } = s
  rw [← h]

/-- Nothing is taken where no RESET with mode WARM waits. -/
theorem warmResets_none (s : State) (h : ∀ w ∈ s.msg.resets, w.isWarm = false) : runItem .warmReset s = s := by
  show s.warmResets = s
  have h1 : s.msg.resets.filter Waiting.isWarm = [] := List.filter_eq_nil_iff.mpr fun w hw => by simp [h w hw]
  have h2 : (s.msg.resets.filter fun w => !w.isWarm) = s.msg.resets := List.filter_eq_self.mpr fun w hw => by simp [h w hw]
  unfold State.warmResets
  simp only [h1, List.foldl_nil, State.onMsg, h2]

/-- Nothing is taken where no RESET with mode SHOW waits. -/
theorem showResets_none (s : State) (h : ∀ w ∈ s.msg.resets, w.isWarm = true) : runItem .showReset s = s := by
  show s.showResets = s
  have h1 : (s.msg.resets.filter fun w => !w.isWarm) = [] := List.filter_eq_nil_iff.mpr fun w hw => by simp [h w hw]
  have h2 : s.msg.resets.filter Waiting.isWarm = s.msg.resets := List.filter_eq_self.mpr fun w hw => by simp [h w hw]
  unfold State.showResets
  simp only [h1, List.foldl_nil, State.onMsg, h2]

/-! ### Steps inside a boundary -/

/-- A step inside a boundary that is next and happens has its effect on the state as it is. -/
theorem stepIn_atItem {s : State} {it : Item} {happens : State → Bool} {effect : State → State} (ha : s.atItem it)
    (hh : happens s = true) : s.stepIn it happens effect = effect s := by
  have hd : s.isDue it = true := by simpa [State.isDue] using ha.2.1
  simp [State.stepIn, hd, ready_of_none s it ha.2.2, hh]

/-- Taking an item that is due takes it off what is due and runs it. -/
theorem runDue_atItem {s : State} {it : Item} (ha : s.atItem it) : s.runDue it = runItem it (s.without it) := by
  have hd : s.isDue it = true := by simpa [State.isDue] using ha.2.1
  simp [State.runDue, State.runOnce, hd, State.without]

/-- A command of a node that is awake. -/
theorem awake_next {s : State} {effect : State → State} (h : s.ports.standsStill = false) :
    s.awake effect = .next (effect s) := by
  simp [State.awake, h]

end Sys2Proof.Machine
end

