-- ==== Sys2Proof/Laws/Fire.lean ====
section
/-! SUPPORT. Everything the end of a playback can do, and what the work of a firing leaves of the cue engine. -/

namespace Sys2Proof.Machine

open Sys2Proof

/-! ### The cue engine outside its fades and its follow -/

/-- The cue engine outside its fades and its follow. -/
def CueEngine.core (c : CueEngine) : List Cue × Option Nat × Option Nat × Option Nat × Bool × Nat :=
  (c.cues, c.standby, c.lastFiring, c.lastCue, c.held, c.firings)

@[simp] theorem post_cue (s : State) (p : Post) : (s.post p).cue = s.cue := rfl
@[simp] theorem closeItem_core (s : State) (it : FollowItem) : (s.closeItem it).cue.core = s.cue.core := rfl
@[simp] theorem closeVoice_core (s : State) (v : Fin 8) (n : Nat) : (s.closeVoice v n).cue.core = s.cue.core := by
  unfold State.closeVoice; (repeat' split) <;> simp
@[simp] theorem dropFade_core (s : State) (t : Target) : (s.dropFade t).cue.core = s.cue.core := rfl
@[simp] theorem putFade_core (s : State) (f : Fade) : (s.putFade f).cue.core = s.cue.core := by
  unfold State.putFade; split
  · dsimp only; split
    · rw [putCode_cue]; rfl
    · rw [closeItem_core, putCode_cue]; rfl
  · rw [putCode_cue]; rfl
@[simp] theorem onVoice_core (s : State) (v : Fin 8) (f : Voice → Voice) : (s.onVoice v f).cue.core = s.cue.core := rfl
@[simp] theorem reportEnd_core (s : State) (v : Fin 8) (p : Playback) (c : EndCause) :
    (s.reportEnd v p c).cue.core = s.cue.core := by
  unfold State.reportEnd; split <;> simp
@[simp] theorem startVoice_core (s : State) (v : Fin 8) (p : Playback) (g : LevelCode) :
    (s.startVoice v p g).cue.core = s.cue.core := rfl
@[simp] theorem restartVoice_core (s : State) (v : Fin 8) (p : Playback) (g : LevelCode) :
    (s.restartVoice v p g).cue.core = s.cue.core := by
  unfold State.restartVoice; dsimp only; split <;> simp
@[simp] theorem playVoice_core (s : State) (v : Fin 8) (p : Playback) (g : LevelCode) :
    (s.playVoice v p g).cue.core = s.cue.core := by
  unfold State.playVoice; split <;> simp
@[simp] theorem silenceVoice_core (s : State) (v : Fin 8) (g : Option LevelCode) : (s.silenceVoice v g).cue.core = s.cue.core := by
  unfold State.silenceVoice; dsimp only; split <;> simp
@[simp] theorem fadeVoiceOut_core (s : State) (v : Fin 8) (d : Nat) (o : Option Nat) (n : Nat) :
    (s.fadeVoiceOut v d o n).cue.core = s.cue.core := by
  unfold State.fadeVoiceOut; (repeat' split) <;> simp
@[simp] theorem stopVoice_core (s : State) (v : Fin 8) (d : Nat) (o : Option Nat) (n : Nat) :
    (s.stopVoice v d o n).cue.core = s.cue.core := by
  unfold State.stopVoice; dsimp only; (repeat' split) <;> simp
@[simp] theorem unstopTarget_core (s : State) (t : Target) : (s.unstopTarget t).cue.core = s.cue.core := by
  unfold State.unstopTarget; split <;> simp
@[simp] theorem move_core (s : State) (cue n : Nat) (t : Target) (c : LevelCode) (d : Nat) (sh : Shape) :
    (s.move cue n t c d sh).cue.core = s.cue.core := by
  unfold State.move; (repeat' split) <;> simp

/-- A voice that leaves its playback: that voice, its fade and no other, and nothing outside the cue engine. -/
theorem leaveVoice_keeps (s : State) (v : Fin 8) :
    (s.leaveVoice v).clip.voices[v] = s.endedVoice v ∧ (∀ u : Fin 8, u ≠ v → (s.leaveVoice v).clip.voices[u] = s.clip.voices[u])
      ∧ (∀ u, u ≠ .voiceGain v → (s.leaveVoice v).fadeOf u = s.fadeOf u) ∧ (s.leaveVoice v).cue.core = s.cue.core
      ∧ (s.leaveVoice v).clip.clips = s.clip.clips ∧ (s.leaveVoice v).clip.capture = s.clip.capture
      ∧ (s.leaveVoice v).relay = s.relay ∧ (s.leaveVoice v).inputs = s.inputs ∧ (s.leaveVoice v).mix = s.mix
      ∧ (s.leaveVoice v).msg = s.msg ∧ (s.leaveVoice v).link = s.link ∧ (s.leaveVoice v).ports = s.ports
      ∧ (s.leaveVoice v).due = s.due := by
  unfold State.leaveVoice
  dsimp only
  cases hp : s.clip.voices[v].pending with
  | none =>
    dsimp only
    refine ⟨?_, ?_, ?_, ?_, ?_⟩
    · simp only [State.endedVoice, hp]
      split
      all_goals simp [Voice.toIdle]
    · intro u hu
      split
      all_goals simp [alter_other _ _ _ _ (Ne.symm hu)]
    · intro u hu
      split
      · exact (dropFade_fadeOf s _ u).trans (if_neg hu)
      · rfl
    · split <;> rfl
    · split <;> exact ⟨rfl, rfl, rfl, rfl, rfl, rfl, rfl, rfl, rfl⟩
  | some q =>
    dsimp only
    by_cases hh : (s.cue.held && s.isCueVoice v) = true
    · rw [if_pos hh]
      refine ⟨?_, ?_, ?_, rfl, rfl, rfl, rfl, rfl, rfl, rfl, rfl, rfl, rfl⟩
      · simp only [State.endedVoice, hp]
        have hh' : (s.cue.held && decide (v.val < 8 - s.clip.reserve)) = true := hh
        rw [if_pos hh', if_pos hh']; simp
      · intro u hu
        simp [alter_other _ _ _ _ (Ne.symm hu)]; exact startVoice_other s v u _ _ hu
      · intro u hu; exact (startVoice_fadeOf s v q.playback q.gain u).trans (if_neg hu)
    · rw [if_neg hh]
      refine ⟨?_, ?_, ?_, rfl, rfl, rfl, rfl, rfl, rfl, rfl, rfl, rfl, rfl⟩
      · simp only [State.endedVoice, hp]
        have hh' : ¬ (s.cue.held && decide (v.val < 8 - s.clip.reserve)) = true := hh
        rw [if_neg hh', if_neg hh']; simp
      · intro u hu; exact startVoice_other s v u _ _ hu
      · intro u hu; exact (startVoice_fadeOf s v q.playback q.gain u).trans (if_neg hu)

/-- Everything `endVoice` does. -/
theorem endVoice_ended (s : State) (v : Fin 8) (c : EndCause) : s.voiceEnded (s.endVoice v c) v c := by
  obtain ⟨h1, h2, hf, hc, g1, g2, g3, g4, g5, g6, g7, g8, g9⟩ := leaveVoice_keeps s v
  have hcl := endVoice_closes s v c
  simp only [CueEngine.core, Prod.mk.injEq] at hc
  obtain ⟨c1, c2, c3, c4, c5, -⟩ := hc
  unfold State.endVoice at hcl ⊢
  cases hp : s.clip.voices[v].playback with
  | none =>
    rw [hp] at hcl
    exact ⟨h1, h2, hcl, hf, c1, c2, c5, c3, c4, fun _ _ h _ => absurd (hp.symm.trans h) (by simp), g1, g2, by rw [g3], by rw [g3]
      , g4, g5, g6, g7, g8, g9⟩
  | some p =>
    rw [hp] at hcl
    dsimp only at hcl ⊢
    obtain ⟨k1, k2, k3, k4, k5, k6, k7, k8, k9, k10, k11, k12, k13⟩ := reportEnd_keeps (s.leaveVoice v) v p c
    have hr := reportEnd_core (s.leaveVoice v) v p c
    simp only [CueEngine.core, Prod.mk.injEq] at hr
    refine ⟨by rw [k1]; exact h1, fun u hu => by rw [k1]; exact h2 u hu, hcl, ?_, k11.trans c1, k12.trans c2, k13.trans c5
      , hr.2.2.1.trans c3, hr.2.2.2.1.trans c4, ?_, by rw [k1]; exact g1, by rw [k1]; exact g2, by rw [k8, g3], by rw [k9, g3]
      , k3.trans g4, k2.trans g5, k4.trans g6, k5.trans g7, k6.trans g8, k7.trans g9⟩
    · intro u hu
      exact (congrArg (fun l => List.find? (fun f : Fade => f.target == u) l) k10).trans (hf u hu)
    · intro q id hq ho
      rw [hp] at hq; cases hq
      simp [State.reportEnd, ho, g3]

/-- An action that is performed leaves the cue engine outside its fades and its follow as it is. -/
theorem perform_core {s t : State} {cue n : Nat} {a : Action} (h : s.perform cue n a = .ok t) :
    t.cue.core = s.cue.core := by
  cases a <;> simp only [State.perform] at h
  case move => split at h <;> cases h; simp
  case play => (repeat' split at h) <;> cases h; simp
  case stop => split at h <;> cases h; simp
  case route => split at h <;> cases h; rfl
  case call => split at h <;> cases h; rfl

@[simp] theorem performAll_core (cue n k : Nat) (as : List Action) (s : State) :
    (State.performAll cue n k as s).1.cue.core = s.cue.core := by
  induction as generalizing k s with
  | nil => rfl
  | cons a as ih =>
    unfold State.performAll
    split
    · next h => rw [ih, perform_core h]
    · dsimp only; rw [ih, post_cue]

/-- Everything a firing settles of the cue engine but its fades (R93): the cue list and HELD stay, the standby is the next cue
above, the last firing and cue are this one, and the follow is that of the cue. -/
theorem fire_cue (s : State) (c : Cue) (a : Arrival) :
    (s.fire c a).cue.cues = s.cue.cues ∧ (s.fire c a).cue.held = s.cue.held
      ∧ (s.fire c a).cue.standby = (nextAfter s.cue.cues c.number).map Cue.number
      ∧ (s.fire c a).cue.lastFiring = some s.boundaries ∧ (s.fire c a).cue.lastCue = some c.number
      ∧ (c.follow = .none → (s.fire c a).cue.follow = none) := by
  have hc := performAll_core c.number (s.cue.firings + 1) 1 c.actions
    (s.onCue fun e => { e with follow := none, firings := s.cue.firings + 1 })
  have hf := (frame_iff _ _).mp (performAll_frame c.number (s.cue.firings + 1) 1 c.actions
    (s.onCue fun e => { e with follow := none, firings := s.cue.firings + 1 }))
  simp only [CueEngine.core, Prod.mk.injEq] at hc
  unfold State.fire
  dsimp only
  simp only [post_cue, State.onCue_cue]
  refine ⟨hc.1, hc.2.2.2.2.1, ?_, ?_, trivial, ?_⟩
  · rw [hc.1]; rfl
  · rw [hf.2.1]; rfl
  · intro hn; simp [State.followOf, hn]

/-- The message controller's own posts are never late (R184). -/
theorem holdsBack_own (m : Msg) {k : EventKind} (h : k.poster = none) : m.holdsBack k = false := by simp [Msg.holdsBack, h]

/-- A post of a block that does not post late reaches the message controller at once (R184). -/
theorem post_direct {s : State} {p : Post} (h : s.msg.holdsBack p.kind = false) :
    s.post p = s.onMsg fun m => m.post s.link.counter p := by
  simp [State.post, Msg.send, State.onMsg, h]

/-- A post of a block that posts late is on its way (R184). -/
theorem post_late {s : State} {p : Post} (h : s.msg.holdsBack p.kind = true) :
    s.post p = s.onMsg fun m => { m with coming := m.coming ++ [{ stamp := s.link.counter, post := p }] } := by
  simp [State.post, Msg.send, State.onMsg, h]

/-- A post that reaches the message controller SETs the condition of its kind (R184). -/
theorem msg_post_condition (m : Msg) (n : U32) (p : Post) : (m.post n p).condition p.kind = true := by
  have hb : (m.conditions ||| conditionBit p.kind).getLsbD p.kind.value = true := by
    have : p.kind.value < 64 := by cases p.kind <;> decide
    simp [conditionBit, this]
  simp only [Msg.condition, Msg.post]
  split
  · split
    · exact hb
    · simp only [BitVec.getLsbD_or, hb, Bool.true_or]
  · exact hb

/-- A post has reached the message controller or is on its way (R184). -/
theorem post_flagged (s : State) (p : Post) : s.flagged (s.post p) p.kind := by
  refine ⟨fun h => ?_, fun h => ?_⟩
  · rw [post_direct h]; exact msg_post_condition s.msg s.link.counter p
  · rw [post_late h]; exact ⟨_, List.mem_append_right _ List.mem_cons_self, rfl⟩

/-- The late posts arrive by the turns of their blocks: the block whose turn it is delivers the oldest of its posts (R184). -/
theorem deliver_late (m : Msg) (b : Poster) (l : List Poster) :
    { m with late := l }.deliver b = { m.deliver b with late := l } := by
  unfold Msg.deliver
  dsimp only
  split
  · simp only [Msg.post, Msg.reports]; (repeat' split) <;> simp_all
  · rfl

end Sys2Proof.Machine
end

