-- ==== Sys2Proof/Laws/Mix.lean ====
section
/-! SUPPORT. What the mix does to blocks and peaks, and the duck sources of a bus, said once. -/

namespace Sys2Proof.Machine

open Sys2Proof

/-- An entry of a table built from a function. -/
theorem table_at {α : Type} {n : Nat} (f : Fin n → α) (i : Fin n) : (table f)[i] = f i := by simp [table]

/-- The largest magnitude of a list over a start value is at least each, and is one of them. -/
theorem foldl_max_natAbs (l : List Int) (m : Nat) : m ≤ l.foldl (fun m x => max m x.natAbs) m
    ∧ (∀ x ∈ l, x.natAbs ≤ l.foldl (fun m x => max m x.natAbs) m)
    ∧ (l.foldl (fun m x => max m x.natAbs) m = m ∨ ∃ x ∈ l, l.foldl (fun m x => max m x.natAbs) m = x.natAbs) := by
  induction l generalizing m with
  | nil => simp
  | cons a l ih =>
    rw [List.foldl_cons]
    obtain ⟨h1, h2, h3⟩ := ih (max m a.natAbs)
    refine ⟨Nat.le_trans (Nat.le_max_left _ _) h1, ?_, ?_⟩
    · intro x hx
      rcases List.mem_cons.mp hx with hx | hx
      · subst hx; exact Nat.le_trans (Nat.le_max_right _ _) h1
      · exact h2 x hx
    · rcases h3 with h3 | ⟨x, hx, h3⟩
      · by_cases c : m ≤ a.natAbs
        · right; exact ⟨a, List.mem_cons_self, by rw [h3]; omega⟩
        · left; omega
      · right; exact ⟨x, List.mem_cons_of_mem _ hx, h3⟩

/-- The samples of a block. -/
theorem mem_block (b : Block) (x : Int) : x ∈ b.toList ↔ ∃ n : Fin 48, b[n] = x := by
  rw [Vector.mem_toList_iff, Vector.mem_iff_getElem]
  exact ⟨fun ⟨i, h, e⟩ => ⟨⟨i, h⟩, e⟩, fun ⟨n, e⟩ => ⟨n.val, n.isLt, e⟩⟩

/-- Some sample of a block has a property. -/
theorem any_block (b : Block) (f : Int → Bool) : b.toList.any f = true ↔ ∃ n : Fin 48, f b[n] = true := by
  rw [List.any_eq_true]
  exact ⟨fun ⟨x, hx, h⟩ => by obtain ⟨n, rfl⟩ := (mem_block b x).mp hx; exact ⟨n, h⟩,
    fun ⟨n, h⟩ => ⟨_, (mem_block b _).mpr ⟨n, rfl⟩, h⟩⟩

/-- The peak of a block is the largest magnitude of its samples. -/
theorem peak_spec (b : Block) : (∀ n : Fin 48, b[n].natAbs ≤ peak b) ∧ ∃ n : Fin 48, b[n].natAbs = peak b := by
  obtain ⟨h1, h2, h3⟩ := foldl_max_natAbs b.toList 0
  refine ⟨fun n => h2 _ ((mem_block b _).mpr ⟨n, rfl⟩), ?_⟩
  rcases h3 with h3 | ⟨x, hx, h3⟩
  · refine ⟨0, ?_⟩
    have := h2 _ ((mem_block b _).mpr ⟨0, rfl⟩)
    unfold peak; omega
  · obtain ⟨n, rfl⟩ := (mem_block b x).mp hx
    exact ⟨n, h3.symm⟩

/-- A meter after a frame is at least what it was and at least every sample, and is one of these (R42, R60). -/
theorem max_peak_spec (m : Nat) (b : Block) : m ≤ max m (peak b) ∧ (∀ n : Fin 48, b[n].natAbs ≤ max m (peak b))
    ∧ (max m (peak b) = m ∨ ∃ n : Fin 48, max m (peak b) = b[n].natAbs) := by
  obtain ⟨h1, n, h2⟩ := peak_spec b
  refine ⟨by omega, fun k => by have := h1 k; omega, ?_⟩
  by_cases c : peak b ≤ m
  · left; omega
  · right; exact ⟨n, by omega⟩

/-- The exact sum of a bus at one sample, over the live gains of its crosspoints (R9). -/
theorem busAcc_sum (s : State) (signals : Vector Block 64) (b : Fin 32) (n : Fin 48) :
    busAcc signals (table fun i => (s.fadeOf (.crosspoint i b), lin s.mix.crosspoints[i][b])) s.cue.held n
      = ((List.finRange 64).map fun i => signals[i][n] * (s.liveGain (.crosspoint i b) n.val : Int)).sum := by
  unfold busAcc
  rw [List.foldl_ext _ (fun acc i => acc + signals[i][n] * (s.liveGain (.crosspoint i b) n.val : Int))]
  · rw [← List.foldl_map (f := fun i => signals[i][n] * (s.liveGain (.crosspoint i b) n.val : Int))
        (g := fun (x y : Int) => x + y),
      ← List.sum_eq_foldl]
  · intro acc i _
    cases h : s.fadeOf (.crosspoint i b) <;> simp [State.liveGain, State.setCode, h]

/-- The active duck sources of a bus (R68). -/
theorem mem_duckSources (s : State) (b : Fin 32) (x : DuckSource) : x ∈ s.duckSources b ↔ match x with
        | .stop => s.mix.buses[b].entry.stopDuck = true ∧ s.mix.stopStands = true
        | .talk g => s.mix.talk[g].live = true ∧ s.mix.talk[g].entry.buses.getLsbD b.val = true := by
  unfold State.duckSources
  cases x with
  | stop =>
    rw [List.mem_append]
    simp only [List.mem_map, reduceCtorEq, and_false, exists_false, or_false]
    by_cases h : (s.mix.buses[b].entry.stopDuck && s.mix.stopStands) = true
    · rw [if_pos h]; simp only [Bool.and_eq_true] at h; simp only [List.mem_singleton, true_iff]; exact h
    · rw [if_neg h]; simp only [Bool.and_eq_true] at h; simp only [List.not_mem_nil, false_iff]; exact h
  | talk g =>
    rw [List.mem_append]
    have : ¬ (DuckSource.talk g ∈
        (if (s.mix.buses[b].entry.stopDuck && s.mix.stopStands) = true then [DuckSource.stop] else [])) := by
      split <;> simp
    rw [or_iff_right this]
    simp only [List.mem_map, DuckSource.talk.injEq, exists_eq_right, List.mem_filter, List.mem_finRange, true_and,
      Bool.and_eq_true]

end Sys2Proof.Machine
end

