-- ==== Sys2Proof/Laws/Posts.lean ====
section
/-! SUPPORT. What posts leave of the message controller, said once: its stores grow by what is posted, and an event that was reported
stays reported. A statement about an event cites `post_reported`, `reported_later` and `reported_before`. -/

namespace Sys2Proof.Machine

open Sys2Proof

/-- The message controller has taken at most a number of posts and done nothing else that an event depends on (R184). -/
structure Msg.Grows (m n : Msg) (k : Nat) : Prop where
  late : n.late = m.late
  node : n.node = m.node
  events : ∃ l, n.events = m.events ++ l ∧ l.length ≤ k
  coming : ∃ l, n.coming = m.coming ++ l
  conditions : ∀ b, m.conditions.getLsbD b = true → n.conditions.getLsbD b = true

theorem grows_refl (m : Msg) : m.Grows m 0 := ⟨rfl, rfl, ⟨[], by simp, Nat.le_refl 0⟩, ⟨[], by simp⟩, fun _ h => h⟩

theorem grows_trans {a b c : Msg} {j k : Nat} (h : a.Grows b j) (g : b.Grows c k) : a.Grows c (j + k) := by
  obtain ⟨h1, h2, ⟨l, h3, h4⟩, ⟨l', h5⟩, h6⟩ := h
  obtain ⟨g1, g2, ⟨r, g3, g4⟩, ⟨r', g5⟩, g6⟩ := g
  refine ⟨g1.trans h1, g2.trans h2, ⟨l ++ r, ?_, ?_⟩, ⟨l' ++ r', ?_⟩, fun b hb => g6 b (h6 b hb)⟩
  · rw [g3, h3, List.append_assoc]
  · rw [List.length_append]; omega
  · rw [g5, h5, List.append_assoc]

theorem grows_mono {a b : Msg} {j k : Nat} (h : a.Grows b j) (hk : j ≤ k) : a.Grows b k := by
  obtain ⟨h1, h2, ⟨l, h3, h4⟩, h5, h6⟩ := h
  exact ⟨h1, h2, ⟨l, h3, by omega⟩, h5, h6⟩

/-- A message controller that is the same has taken nothing. -/
theorem grows_of_eq {a b : Msg} (h : b = a) : a.Grows b 0 := h ▸ grows_refl a

/-- A post that reaches the message controller is at most one record more. -/
theorem msg_post_grows (m : Msg) (n : U32) (p : Post) : m.Grows (m.post n p) 1 := by
  have hc : ∀ (x : U64) b, m.conditions.getLsbD b = true → (m.conditions ||| x).getLsbD b = true := by
    intro x b h; rw [BitVec.getLsbD_or, h, Bool.true_or]
  unfold Msg.post
  dsimp only
  split
  · split
    · exact ⟨rfl, rfl, ⟨_, rfl, Nat.le_refl 1⟩, ⟨[], by simp⟩, hc _⟩
    · refine ⟨rfl, rfl, ⟨[], by simp, Nat.zero_le 1⟩, ⟨[], by simp⟩, fun b h => ?_⟩
      show ((m.conditions ||| _) ||| _).getLsbD b = true
      rw [BitVec.getLsbD_or, hc _ b h, Bool.true_or]
  · exact ⟨rfl, rfl, ⟨[], by simp, Nat.zero_le 1⟩, ⟨[], by simp⟩, hc _⟩

/-- A post is at most one record more, whether it comes at once or late. -/
theorem post_grows (s : State) (p : Post) : s.msg.Grows (s.post p).msg 1 := by
  cases h : s.msg.holdsBack p.kind with
  | false => rw [post_direct h]; exact msg_post_grows s.msg s.link.counter p
  | true =>
    rw [post_late h]
    exact ⟨rfl, rfl, ⟨[], by simp, Nat.zero_le 1⟩, ⟨_, rfl⟩, fun _ h => h⟩

/-- A post is reported by the state it is posted in, in a queue with room for it (R184). -/
theorem post_reported (s : State) (p : Post) : s.reported (s.post p) 1 p := by
  refine ⟨post_flagged s p, fun h hr hl => ?_, fun h => ?_⟩
  · rw [post_direct h]
    have : s.msg.events.length < Config.maxEvents := by omega
    simp [Msg.post, hr, this, State.onMsg]
  · rw [post_late h]; simp [State.onMsg]

/-- An event that was reported stays reported through further posts. -/
theorem reported_later {s t u : State} {room k : Nat} {p : Post} (h : s.reported t room p) (g : t.msg.Grows u.msg k) :
    s.reported u room p := by
  obtain ⟨⟨h1, h2⟩, h3, h4⟩ := h
  obtain ⟨-, -, ⟨l, g3, -⟩, ⟨r, g5⟩, g6⟩ := g
  refine ⟨⟨fun hb => g6 _ (h1 hb), fun hb => ?_⟩, fun hb hr hl => ?_, fun hb => ?_⟩
  · obtain ⟨e, he, hk⟩ := h2 hb
    exact ⟨e, by rw [g5]; exact List.mem_append_left _ he, hk⟩
  · rw [g3]; exact List.mem_append_left _ (h3 hb hr hl)
  · rw [g5]; exact List.mem_append_left _ (h4 hb)

/-- An event reported after some posts is reported by the state before them, in a queue with room for those too. -/
theorem reported_before {s t u : State} {room k : Nat} {p : Post} (g : s.msg.Grows t.msg k)
    (hc : t.link.counter = s.link.counter) (h : t.reported u room p) : s.reported u (room + k) p := by
  obtain ⟨⟨h1, h2⟩, h3, h4⟩ := h
  obtain ⟨g1, g2, ⟨l, g3, g4⟩, -, -⟩ := g
  have hb : t.msg.holdsBack p.kind = s.msg.holdsBack p.kind := by simp [Msg.holdsBack, g1]
  have hr : t.msg.reports p.kind = s.msg.reports p.kind := by simp [Msg.reports, g2]
  rw [hb] at h1 h2 h3 h4
  rw [hc] at h3 h4
  refine ⟨⟨h1, h2⟩, fun hb' hr' hl => h3 hb' (hr.trans hr') ?_, h4⟩
  rw [g3, List.length_append]; omega

/-! ### The posts of a firing -/

theorem silenceVoice_msg (s : State) (v : Fin 8) (g : Option LevelCode) : (s.silenceVoice v g).msg = s.msg := by
  unfold State.silenceVoice; dsimp only
  split
  · next p _ => exact (reportEnd_keeps _ v p .ended).2.2.2.1
  · rfl

theorem putCode_msg (s : State) (t : Target) (c : LevelCode) : (s.putCode t c).msg = s.msg := by cases t <;> rfl

theorem putFade_msg (s : State) (f : Fade) : (s.putFade f).msg = s.msg := by
  unfold State.putFade
  split
  · dsimp only; split
    · exact putCode_msg _ _ _
    · exact putCode_msg _ _ _
  · exact putCode_msg _ _ _

theorem closeVoice_msg (s : State) (v : Fin 8) (n : Nat) : (s.closeVoice v n).msg = s.msg := by
  unfold State.closeVoice; (repeat' split) <;> rfl

theorem unstopTarget_msg (s : State) (t : Target) : (s.unstopTarget t).msg = s.msg := by cases t <;> rfl

theorem playVoice_msg (s : State) (v : Fin 8) (p : Playback) (g : LevelCode) : (s.playVoice v p g).msg = s.msg := by
  unfold State.playVoice
  split
  · rfl
  · unfold State.restartVoice; dsimp only
    split
    · exact closeVoice_msg _ _ _
    · rfl

theorem stopVoice_grows (s : State) (v : Fin 8) (d : Nat) (o : Option Nat) (n : Nat) : s.msg.Grows (s.stopVoice v d o n).msg 1 := by
  have same : ∀ t : State, t.msg = s.msg → s.msg.Grows t.msg 1 := fun t h => grows_mono (grows_of_eq h) (Nat.zero_le 1)
  unfold State.stopVoice
  dsimp only
  split
  · exact same _ rfl
  · exact same _ (silenceVoice_msg s v _)
  · split
    · exact same _ (closeVoice_msg _ _ _)
    · exact same _ rfl
  · exact same _ rfl
  · unfold State.fadeVoiceOut
    split
    · exact same _ (silenceVoice_msg s v _)
    · split
      · exact same _ (putFade_msg s _)
      · rw [silenceVoice_msg]; exact post_grows s _

theorem move_grows (s : State) (cue n : Nat) (t : Target) (c : LevelCode) (d : Nat) (sh : Shape) :
    s.msg.Grows (s.move cue n t c d sh).msg 1 := by
  have same : ∀ u : State, u.msg = s.msg → s.msg.Grows u.msg 1 := fun u h => grows_mono (grows_of_eq h) (Nat.zero_le 1)
  unfold State.move
  split
  · refine same _ ?_
    rw [putCode_msg, unstopTarget_msg]; rfl
  · split
    · refine same _ ?_
      rw [unstopTarget_msg, putFade_msg]
    · rw [putCode_msg]; exact post_grows s _

/-- An action that is performed posts at most one event. -/
theorem perform_grows {s t : State} {cue n : Nat} {a : Action} (h : s.perform cue n a = .ok t) : s.msg.Grows t.msg 1 := by
  have same : ∀ u : State, u.msg = s.msg → s.msg.Grows u.msg 1 := fun u h => grows_mono (grows_of_eq h) (Nat.zero_le 1)
  cases a <;> simp only [State.perform] at h
  case move => split at h <;> cases h; exact move_grows _ _ _ _ _ _ _
  case play => (repeat' split at h) <;> cases h; exact same _ (playVoice_msg _ _ _ _)
  case stop => split at h <;> cases h; exact stopVoice_grows _ _ _ _ _
  case route => split at h <;> cases h; exact same _ rfl
  case call => split at h <;> cases h; exact same _ rfl

/-- The actions of a firing post at most one event each. -/
theorem performAll_grows (cue n k : Nat) (as : List Action) (s : State) :
    s.msg.Grows (State.performAll cue n k as s).1.msg as.length := by
  induction as generalizing k s with
  | nil => exact grows_refl _
  | cons a as ih =>
    unfold State.performAll
    have h1 : 1 + as.length ≤ (a :: as).length := by rw [List.length_cons]; omega
    split
    · next h => exact grows_mono (grows_trans (perform_grows h) (ih _ _)) h1
    · exact grows_mono (grows_trans (post_grows s _) (ih _ _)) h1

/-- The open items of a firing: the fades of its serial, and the voices that count toward its follow (R99). -/
theorem mem_openItems (s : State) (n : Nat) :
    (∀ u, FollowItem.fade u ∈ s.openItems n ↔ ∃ f ∈ s.cue.fades, f.target = u ∧ f.serial = n)
      ∧ ∀ v : Fin 8, FollowItem.voice v ∈ s.openItems n ↔ s.clip.voices[v].counts n = true := by
  constructor
  · intro u
    simp only [State.openItems, List.mem_append, List.mem_map, List.mem_filter]
    constructor
    · rintro (⟨f, ⟨x, y⟩, z⟩ | ⟨v, -, z⟩)
      · cases z; exact ⟨f, x, rfl, by simpa using y⟩
      · cases z
    · rintro ⟨f, x, z, y⟩; exact .inl ⟨f, ⟨x, by simpa using y⟩, by rw [z]⟩
  · intro v
    simp only [State.openItems, List.mem_append, List.mem_map, List.mem_filter]
    constructor
    · rintro (⟨f, -, z⟩ | ⟨w, ⟨-, x⟩, z⟩)
      · cases z
      · cases z; exact x
    · intro h; exact .inr ⟨v, ⟨List.mem_finRange v, h⟩, rfl⟩

/-- Everything a firing does (R93). -/
theorem fire_fired (s : State) (c : Cue) (a : Arrival) : s.fired (s.fire c a) c (BitVec.ofNat 8 a.ctorIdx) := by
  obtain ⟨h1, h2, h3, h4, h5, h6⟩ := fire_cue s c a
  let cleared := s.onCue fun e => { e with follow := none, firings := s.cue.firings + 1 }
  let done := State.performAll c.number (s.cue.firings + 1) 1 c.actions cleared
  have hg : s.msg.Grows done.1.msg c.actions.length := performAll_grows c.number (s.cue.firings + 1) 1 c.actions cleared
  have hf : done.1.frame = s.frame := performAll_frame c.number (s.cue.firings + 1) 1 c.actions cleared
  have hc : done.1.cue.core = cleared.cue.core := performAll_core c.number (s.cue.firings + 1) 1 c.actions cleared
  rw [frame_iff] at hf
  simp only [CueEngine.core, Prod.mk.injEq] at hc
  let set := done.1.onCue fun e => { e with
    standby := (nextAfter e.cues c.number).map Cue.number, lastFiring := some done.1.boundaries, lastCue := some c.number
    follow := done.1.followOf c (s.cue.firings + 1) }
  have ht : s.fire c a = set.post (cueFiredPost c.number a done.2) := rfl
  obtain ⟨m1, m2⟩ := mem_openItems done.1 (s.cue.firings + 1)
  have hr := reported_before (t := set) hg (by rw [show set.link = s.link from hf.2.2.2.2.1])
    (post_reported set (cueFiredPost c.number a done.2))
  rw [Nat.add_comm] at hr
  refine ⟨rfl, rfl, rfl, rfl, rfl, h1, h2, hc.2.2.2.2.2, h5, h4, h3, h6, ?_, ?_, hr, hf.2.2.2.2.1, hf.2.2.2.2.2, hf.2.1⟩
  · intro hk
    show done.1.followOf c (s.cue.firings + 1) = _
    simp [State.followOf, hk, hf.2.1]
  · intro hk
    refine ⟨done.1.openItems (s.cue.firings + 1), ?_, m1, m2⟩
    show done.1.followOf c (s.cue.firings + 1) = _
    simp [State.followOf, hk, hf.2.1]

end Sys2Proof.Machine
end

