-- ==== Sys2Proof/Tests/Slice0.lean ====
section
/-! SUPPORT. Tests: ill-formed commands refused, bodies written out by hand from Chapter 9 and read, one or two steps of the
commands with results worked out from the rules, and for each statement a state that meets its hypotheses. -/

namespace Sys2Proof.Tests

open Sys2Proof Sys2Proof.Machine

set_option Elab.async false

/-! ### States and operands of the tests -/

/-- The state a command leaves. -/
def after (c : Instr) (s : State) : State :=
  match exec c s with
  | .next t => t
  | _ => s

/-- A message for the node itself. -/
def me : Origin := .addressed 7

/-- A node whose link is LOCKED and LINK-TIMED on port A, between boundaries. -/
def live : State :=
  { State.reset with link := { State.reset.link with state := .locked, linkTimed := true, upstream := some .a } }

/-- That node with one item of a boundary left, at its third boundary. -/
def at' (it : Item) : State :=
  { live with
    boundaries := 3
    due := [it] }

/-- Pins all released. -/
def noPins : Pins := { go := false, talk := 0, ack := 0, presence := 0 }

/-- A boundary taken whole, with nothing on the local side. -/
def plain : Env := { pins := noPins, audio := Vector.replicate 8 [] }

/-- An empty cell. -/
def noCell : Cell := { address := 0, flags := 0, tag := 0, length := 0, body := Vector.replicate 28 0 }

/-- A frame of silence with a given hop count, its check not set. -/
def rawFrame (hop : U8) : Frame :=
  { number := 9, flags := 0, hop := hop, validity := 0, audio := Vector.replicate 64 (Vector.replicate 48 0)
    request := noCell, answer := noCell, attention := 0, check := 0 }

/-- The frame with a check value put in. -/
def withCheck (f : Frame) (c : U32) : Frame := { f with check := c }

/-- A frame whose check passes. -/
def good (f : Frame) : Frame := withCheck f (checkValue f.covered)

/-- A frame whose check fails. -/
def bad (f : Frame) : Frame := withCheck f (checkValue f.covered + 1)

theorem withCheck_passes (f : Frame) (c : U32) : (withCheck f c).passes = (checkValue f.covered == c) := rfl

theorem good_passes (f : Frame) : (good f).passes = true := by
  unfold good; rw [withCheck_passes]; exact beq_self_eq_true _

theorem ne_succ (x : U32) : (x == x + 1) = false := by simp

theorem bad_fails (f : Frame) : (bad f).passes = false := by
  unfold bad; rw [withCheck_passes]; exact ne_succ _

theorem quiet_between {s : State} (h : s.ports.standsStill = false) (d : s.due = []) : s.between :=
  ⟨h, by rw [d]; exact fun _ h => absurd h List.not_mem_nil⟩

theorem quiet_meters {s : State} (h : s.ports.standsStill = false) (d : s.due = [.busMeters]) : s.between :=
  ⟨h, by rw [d]; decide⟩

theorem hears_of {s : State} {o : Origin} (h : s.reached o = true) (r : s.msg.replies = []) : s.hears o :=
  ⟨h, fun _ _ => by rw [r]; decide, by intro q hq; rw [r] at hq; exact absurd hq List.not_mem_nil⟩

theorem at_of {s : State} {it : Item} (h : s.ports.standsStill = false) (d : s.due = [it]) (n : it ∉ needs it) : s.atItem it :=
  ⟨h, by rw [d]; exact List.mem_singleton.mpr rfl, by intro x hx; rw [d] at hx; rw [List.mem_singleton.mp hx]; exact n⟩

/-! ### Ill-formed commands -/

theorem test_wf_groupAddress : (Instr.halt (.group 63)).wellFormed = false := by decide
theorem test_wf_groupAddress_high : (Instr.halt (.group 96)).wellFormed = false := by decide
theorem test_wf_unknownAction :
    (Instr.cueStore me { number := 1, follow := 0, wait := 0, actions := [.unknown 5] }).wellFormed = false := by decide
theorem test_wf_actionCount :
    RawCue.wellFormed { number := 1, follow := 0, wait := 0, actions := List.replicate 256 (.stop 0 0) } = false := by
  decide +kernel
theorem test_wf_windowOfBus : (Instr.tableRead me 3 (.window ⟨0, 0, 0, 0⟩)).wellFormed = false := by decide
theorem test_wf_rangeOfCrosspoint : (Instr.tableRead me 2 (.range 0 1)).wellFormed = false := by decide
theorem test_wf_meterAsRead : (Instr.tableRead me 9 (.range 0 1)).wellFormed = false := by decide
theorem test_wf_bodyTooLong : (Instr.tableWriteVoice me 0 (List.replicate 139 0)).wellFormed = false := by decide +kernel
theorem test_wf_orderTwice :
    (Instr.localIntervalExpiry { plain with order := [.levels, .levels] }).wellFormed = false := by decide
theorem test_wf_callId : (Instr.callOnAir 0).wellFormed = false := by decide
theorem test_wf_accepts : (Instr.tableWriteVoice me 0 [900, 0]).wellFormed = true := by decide

/-! ### Bodies written out by hand (Chapter 9, Tables 9-3 to 9-6, R175, R178) -/

theorem test_read_writeVoice : parseBody [1, 7, 2, 0x03, 0x84] = .ok (.writeVoice 2 [900]) := by decide
theorem test_read_writeOutput : parseBody [1, 4, 24, 1, 3, 5] = .ok (.writeOutput 24 [⟨⟨1, 3⟩, 5⟩]) := by decide
theorem test_read_writeCrosspoint :
    parseBody [1, 2, 0, 0, 4, 5, 0, 1, 0x03, 0xE8] = .ok (.writeCrosspoint ⟨0, 0, 4, 5⟩ [1, 1000]) := by decide
theorem test_read_writePartEntry : parseBody [1, 4, 24, 1, 3] = .error .length := by decide
theorem test_read_badTable : parseBody [1, 9, 0] = .error .badTable := by decide
theorem test_read_unknownKind : parseBody [25] = .error .unknownKind := by decide
theorem test_read_empty : parseBody [] = .error .length := by decide
theorem test_read_go : parseBody [7, 0, 0, 1, 0x02] = .ok (.go 258) := by decide
theorem test_read_goLong : parseBody [7, 0, 0, 1, 2, 0] = .error .length := by decide
theorem test_read_cueStore :
    parseBody [4, 0, 0, 0, 10, 2, 1, 0, 0, 0, 5, 2, 3, 0, 0, 0, 100, 0, 1, 4, 0, 0x02, 0x58, 0, 0, 0, 50, 1]
      = .ok (.cueStore { number := 10, follow := 1, wait := 5
                         actions := [.stop 3 100, .move ⟨1, 4, 0⟩ 600 50 1] }) := by decide
theorem test_read_callPlace :
    parseBody [11, 2, 0x80, 0x01, 1, 7, 1, 2, 0, 0, 0, 9, 0, 0, 0, 8, 0, 0, 0, 7]
      = .ok (.callPlace { priority := 2, zones := 0x8001, source := ⟨1, 7⟩, ack := 1, repeats := 2, waitLimit := 9
                          ackTimeout := 8, maxOnAir := 7 }) := by decide
theorem test_read_capture : parseBody [16, 3, 2, 5, 0, 0, 0, 48] = .ok (.capture 3 ⟨2, 5⟩ 48) := by decide
theorem test_read_meter : parseBody [2, 9, 0, 4] = .ok (.readMeter 0 4) := by decide
theorem test_read_flagsClear : parseBody [23, 0, 0, 0, 0, 0, 0, 0, 3] = .ok (.flagsClear 3) := by decide
theorem test_decode_none : decodeTableWord 8 7 = none := rfl

/-! ### Arithmetic worked out from Chapter 1 -/

/-- The gate's example of R7. -/
theorem test_gateOpens : (roundQ (1000000 * ramp 0 4194304 0), roundQ (1000000 * ramp 0 4194304 23),
    roundQ (1000000 * ramp 0 4194304 47)) = (20833, 500000, 1000000) := by decide +kernel
theorem test_tiesToEven : (roundDiv 5 2, roundDiv 7 2, roundDiv (-5) 2, roundDiv (-7) 2) = (2, 4, -2, -4) := by decide
theorem test_saturates : (saturate 8388608, saturate (-8388609), overflows 8388607) = (8388607, -8388608, false) := by decide
theorem test_levels : (lin 0, lin 1, lin 900, lin 1000) = (0, 134, 4194304, 13263554) := by decide +kernel
theorem test_levelsRise : (levelTable.zip (levelTable.drop 1)).all (fun x => x.1 < x.2) = true := by decide +kernel
theorem test_levelCount : levelTable.length = 1001 := by decide +kernel

/-- The mix of Table 1-3, and the same bus ducked to LC 700. -/
theorem test_workedMix :
    let acc : Int := 1000000 * lin 840 + -200000 * lin 900
    acc = 1263271200000 ∧ roundQ acc = 301187 ∧ roundQ (roundQ acc * combinedGain (lin 900) (lin 700) (lin 900)) = 30119 := by
  decide +kernel

/-- The limiter frames of Table 1-4: required gain, gain and peak of the output. -/
theorem test_workedLimiter :
    let t := limiterThreshold 840
    t = 4204263 ∧ requiredGain t 6000000 = 2938992 ∧ limitedSample 6000000 2938992 = 4204262
      ∧ limiterGain (requiredGain t 5000000) 2938992 200 = 2959963 ∧ limitedSample 5000000 2959963 = 3528551
      ∧ limiterGain (requiredGain t 2000000) 2959963 200 = 2980934 ∧ limitedSample 2000000 2980934 = 1421420 := by
  decide +kernel

/-- The LINEAR fade of Table 1-5 and the two LEVEL fades after it. -/
theorem test_workedFades :
    [linearGain 4194304 2102132 3 0 0, linearGain 4194304 2102132 3 0 47, linearGain 4194304 2102132 3 1 47,
        linearGain 4194304 2102132 3 2 47] = [4179776, 3496914, 2799523, 2102132]
      ∧ (List.range 4).map (levelAt 900 840 4) = [885, 870, 855, 840]
      ∧ (List.range 7).map (levelAt 0 900 7) = [128, 257, 385, 514, 642, 771, 900] := by decide +kernel

/-- The duck of Table 1-6. -/
theorem test_workedDuck :
    let attack := fun e => duckMove e 419430 419430 50 200
    let release := fun e => duckMove e 4194304 419430 50 200
    attack 4194304 = 4118807 ∧ attack 4118807 = 4043310 ∧ attack 419454 = 419430 ∧ release 419430 = 438304
      ∧ release 4194230 = 4194304 ∧ ramp 4194304 4118807 0 = 4192732 := by decide +kernel

/-- One boundary of an input: counted, then moved by the transition that happens. -/
def supervise (valid : Src → Bool) (r : InputRecord) : InputRecord :=
  let c := r.count valid
  (((c.transition valid 12).map Prod.fst).getD c).carry valid

/-- Input 12 of the manual's example, its sources valid for longer than a run counts. -/
def understudy : InputRecord :=
  { InputRecord.cold with
    entry := { source := some (.link 5), spare := some (.link 6), trim := 900, lossThreshold := 3, restoreThreshold := 5
               autoReturn := true, talkGroup := none }
    state := .primary, primaryRun := 65535, spareRun := 65535, carried := some (.link 5) }

/-- A boundary at which only slot 6 is valid. -/
def down (r : InputRecord) : InputRecord := supervise (fun x => x == .link 6) r

/-- A boundary at which every source is valid. -/
def up (r : InputRecord) : InputRecord := supervise (fun _ => true) { r with lossCut := false }

/-- The loss and the return of Table 2-4: the record at boundaries 102, 103 and 108. -/
theorem test_workedSubstitution :
    down (down understudy) = { understudy with primaryRun := 0, invalidRun := 2 }
      ∧ down (down (down understudy)) = { understudy with
          state := .spare, active := .spare, primaryRun := 0, carried := some (.link 6), lossCut := true }
      ∧ up (up (up (up (up (down (down (down understudy))))))) = { understudy with
          primaryRun := 5, outgoing := some (some (.link 6)) } := by decide +kernel

/-- The press of Table 10-2: a bounce at boundary 101, and the level taken at 121, not at 120. -/
theorem test_workedPress :
    let play := fun (pins : List Bool) => pins.foldl (fun l raw => (l.sample raw).take) { Line.cold with taken := some false }
    (play ([true, false] ++ List.replicate 19 true)) = { taken := some false, candidate := some true, run := 19 }
      ∧ (play ([true, false] ++ List.replicate 20 true)).taken = some true := by decide +kernel

/-- The check of the register's first byte: eight shifts of 0xFFFFFFFF xor 0 (R158). -/
theorem test_checkOfZeroByte : checkValue [0] = 0xB1F7404B := by decide +kernel

/-! ### The order of a boundary's work -/

/-- The default order takes every item once, and each after all that must come before it. -/
theorem test_itemsInOrder : allItems.Nodup ∧ allItems.length = 44 := by decide
theorem test_itemsNeedEarlier :
    allItems.all (fun it => (needs it).all fun x => (allItems.takeWhile fun y => y != it).contains x) = true := by
  decide +kernel

/-- A write of a voice's gain and the beginning of its pending start may come in either order (R121, R123). -/
theorem test_writeAndPendingStart : Item.ends ∉ needs .voiceWrites ∧ Item.voiceWrites ∉ needs .ends := by decide

/-! ### What the commands do, worked out from the rules -/

theorem quiet_live : live.between := quiet_between rfl rfl
theorem hears_live (o : Origin) (h : ∀ a, o ≠ .group a) : live.hears o := by
  refine hears_of ?_ rfl
  cases o with
  | addressed tag => rfl
  | group a => exact absurd rfl (h a)
  | broadcast => rfl
theorem hears_me : live.hears me := hears_live me fun _ h => by cases h
theorem quiet_at {it : Item} (n : it ∉ needs it) : (at' it).atItem it := at_of rfl rfl n
theorem hears_at (it : Item) : (at' it).hears me := hears_of rfl rfl

/-- The straps give the address, and 63 gives none (R191). -/
theorem test_coldReset : (after (.coldReset 5) State.reset).msg.address = some 5
    ∧ (after (.coldReset 63) State.reset).msg.address = none := by decide +kernel

/-- A node held in reset takes no message (R192). -/
theorem test_resetPin : (after (.holdOn me) (after .resetPinAsserted live)).msg.holdOpen = false
    ∧ (after (.coldReset 9) (after .resetPinAsserted live)).ports.standsStill = false := by decide +kernel

/-- A boundary counts on, and at the first after reset nothing has been received (R169, R188). -/
theorem test_localBoundary :
    let t := after (.localIntervalExpiry { plain with audio := Vector.replicate 8 [0xFFFFFF] }) State.reset
    t.link.counter = 1 ∧ t.ports.localIn[0][47] = 0 := by decide +kernel

/-- At a later boundary the latest sample is handed in last, behind those before it (R188). -/
theorem test_inputBlock : ((inputBlock [0xFFFFFF])[47], (inputBlock [0xFFFFFF])[46]) = (-1, 0) := by decide +kernel

/-- Only while its link is LOCKED and LINK-TIMED does a message reach the node (R165, R170). -/
theorem test_linkGates : (after (.holdOn me) State.reset).msg.holdOpen = false ∧ (after (.holdOn me) live).msg.holdOpen = true := by
  decide +kernel

/-- The 100th good arrival locks the link, and LINK_RESTORED calls only the first lock the first (R164, R165). -/
theorem test_locks :
    let ready (n : Nat) : Link := { State.reset.link with state := .reacquiring, reacquire := 99, locks := n }
    ((ready 0).again.state, (ready 0).again.locks, (ready 1).again.locks) = (.locked, 1, 2) := by decide

/-- The 20th boundary of an asserted pin takes the level, and no earlier one (R189). -/
theorem test_debounce : (((List.range 19).foldl (fun l _ => (l.sample true).take) Line.cold).taken = none)
    ∧ ((List.range 20).foldl (fun l _ => (l.sample true).take) Line.cold).taken = some true := by decide

/-- HOLD ON, a staged write of the VOICE table, and APPLY: the entry leaves the store for the boundary (R182, R183). -/
theorem test_hold :
    let held := after (.tableWriteVoice me 7 [2000, 3]) (after (.holdOn me) live)
    held.msg.staged = [.voice 7 1000]
      ∧ (after (.holdApply me) held).msg.accepted = [.write true (.voice 7 1000)]
      ∧ (after (.holdDiscard me) held).msg.staged = [] := by decide +kernel

/-- A cue to store: a STOP and a MOVE whose code and frames are clamped (R82). -/
def rawCue (n : U32) : RawCue := { number := n, follow := 0, wait := 0, actions := [.stop 3 700000, .move ⟨1, 4, 0⟩ 2000 50 1] }

/-- The clamped record stands in the list, in order of number (R81 to R83). -/
theorem test_cueStore :
    (after (.cueStore me (rawCue 5)) (after (.cueStore me (rawCue 10)) live)).cue.cues
      = [{ number := 5, follow := .none, wait := 0, actions := [.stop 3 600000, .move (.busGain 4) 1000 50 .level] },
         { number := 10, follow := .none, wait := 0, actions := [.stop 3 600000, .move (.busGain 4) 1000 50 .level] }] := by
  decide +kernel

/-- A GO of a numbered cue fires it: the MOVE makes a LEVEL fade from the code the bus had, and the next cue stands by (R93,
R102). -/
theorem test_go :
    let s := { at' .requests with cue := (after (.cueStore me (rawCue 5)) (after (.cueStore me (rawCue 10)) live)).cue }
    let t := after (.go me 5) s
    t.cue.fades = [{ target := .busGain 4, start := .level 900, endCode := 1000, frames := 50, elapsed := 0, owner := some 5
                     serial := 1 }]
      ∧ t.cue.standby = some 10 ∧ t.cue.lastFiring = some 3
      ∧ t.msg.replies.map Reply.body = [some [0, 0, 0, 0, 5, 0, 0, 0, 10]] := by decide +kernel

/-- HALT posts CUE_HELD once (R107). -/
theorem test_halt : (after (.halt me) (after (.halt me) (at' .requests))).msg.events.length = 1 := by decide +kernel

/-- TALK ON waits for the boundary; its reply shows the line released, latch OFF and key OFF (R64). -/
theorem test_talk : (after (.talk me 2 1) live).msg.talks = [(2, true)]
    ∧ (after (.talk me 2 1) live).msg.replies.map Reply.body = [some [0, 1, 0, 0]]
    ∧ (after (.talk me 4 1) live).msg.replies.map Reply.body = [some [4]] := by decide +kernel

/-- CAPTURE below 48 samples takes 48 and leaves the rest of 4,194,304 free (R113, R114). -/
theorem test_capture :
    (after (.capture me 3 ⟨1, 63⟩ 10) live).clip.clips = [{ id := 3, length := 48, stored := false, samples := [] }]
      ∧ (after (.capture me 3 ⟨3, 0⟩ 10) live).msg.replies.map Reply.body = [some [4]] := by decide +kernel

/-- The first call takes id 1 and takes part from the next pass (R136). -/
def rawCall : RawCall :=
  { priority := 2, zones := 0x8001, source := ⟨2, 3⟩, ack := 1, repeats := 2, waitLimit := 9, ackTimeout := 8, maxOnAir := 7 }

theorem test_callPlace :
    (after (.callPlace me rawCall) live).relay.calls.map (fun c => (c.id, c.repeats, c.fromPass)) = [(1, 0, 1)]
      ∧ (after (.callCancel me 1) { at' .relayRequests with
          relay := (after (.callPlace me rawCall) live).relay }).relay.calls = [] := by decide +kernel

/-- EVENT FETCH returns the record's 16 bytes: kind CUE_HELD 13, counter, no subject, cause HALT (Table 9-7). -/
theorem test_eventFetch :
    let s := { live with msg := { live.msg with events := [{ stamp := 258, post := heldPost false }] } }
    (after (.eventFetch me 1) s).msg.replies.map Reply.body
        = [some [0, 1, 0, 0, 13, 0, 0, 1, 2, 0, 0, 0, 0, 0, 0, 0, 0, 0, 0, 0]]
      ∧ (after (.eventFetch me 1) s).msg.events = [] := by decide +kernel

/-- The link part of STATUS READ: LOCKED, LINK-TIMED, port A, and counts of 0, as they stood at the most recent boundary, not
with a frame dropped since (R171). -/
theorem test_statusRead :
    let s := runItem .execute live
    let dropped := s.onLink fun l => { l with hopDrop := 1 }
    (after (.statusRead me 7 0 0) dropped).msg.replies.map Reply.body
      = [some ([0, 2, 0, 1] ++ List.replicate 14 0)] := by decide +kernel

/-- A fifth addressed message finds no place and is discarded (R176). -/
theorem test_replyQueue :
    let full := (List.range 4).foldl (fun s _ => after (.holdOn me) s) live
    full.msg.replies.length = 4 ∧ (after (.holdDiscard me) full).msg.holdOpen = true
      ∧ (after (.holdDiscard me) full).msg.events.map (fun e => e.post.kind) = [.requestOverrun] := by decide +kernel

/-- A write of a voice's gain code, then a restart at the same boundary: the cut-out runs at the level of the frame before, and the
new code is lost (R121, R123). -/
theorem test_restartAfterWrite :
    let v : Voice := { Voice.cold with state := .playing, gain := 900, gainEnd := 4194304 }
    let s := (State.reset.onVoice 7 fun _ => v).applyEntry (.voice 7 100)
    let p : Playback := { clip := 1, loop := false, owner := .direct, serial := 0 }
    s.clip.voices[(7 : Fin 8)].gain = 100 ∧ (s.restartVoice 7 p 500).clip.voices[(7 : Fin 8)].gain = 900 := by decide +kernel

/-- A STOP with 0 frames leaves a playing voice at code 0 (R19, R102). -/
theorem test_stopAtOnce :
    let s := State.reset.onVoice 7 fun r => { r with state := .playing, gain := 900 }
    (s.stopVoice 7 0 none 0).clip.voices[(7 : Fin 8)].gain = 0 := by decide +kernel

/-- An INPUT SELECT and a source write act in the order in which they came: a write after the choice resets it (R38). -/
theorem test_selectThenWrite :
    let e : InputEntry := { InputRecord.cold.entry with source := some (.voice 1), spare := some (.voice 2) }
    let s (l : List Accepted) := runItem .writes (State.reset.onMsg fun m => { m with accepted := l })
    ((s [.write false (.input 3 e), .select 3 .spare]).inputs[(3 : Fin 64)].forced,
      (s [.select 3 .spare, .write false (.input 3 e)]).inputs[(3 : Fin 64)].forced) = (true, false) := by decide +kernel

/-! ### Witnesses: states and operands that meet the hypotheses of the statements -/

/-- A node whose link is in a state, with port A upstream. -/
def linked (st : LinkState) (count : Nat) : State :=
  { State.reset with link := { State.reset.link with state := st, upstream := some .a, reacquire := count } }

/-- A node with its last input as given, at the transitions. -/
def withInput (r : InputRecord) : State := (at' .transitions).onInput 63 fun _ => r

/-- An input with both sources: voices are always valid, and a local channel whose presence was never taken is not. -/
def fed (source spare : Option Src) (st : SupState) (side : Side) (invalid primary spareRun : Nat) : InputRecord :=
  { InputRecord.cold with
    entry := { InputRecord.cold.entry with
      source := source, spare := spare, lossThreshold := 3, restoreThreshold := 9, autoReturn := true }
    state := st, active := side, invalidRun := invalid, primaryRun := primary, spareRun := spareRun }

/-- A call as placed before the boundary at hand. -/
def aCall : Call :=
  { id := 5, priority := 1, zones := 0x8001, source := .input 3, ackRequired := true, acks := Vector.replicate 16 .notAsked
    repeats := 1, waitLimit := 1, ackTimeout := 1, maxOnAir := 1, state := .waiting, voice := none, passes := 0, reserved := 0
    waitCount := 0, ackCount := 0, onAirCount := 0, since := 2, fromPass := 3 }

/-- A node with one call, at an item. -/
def withCall (it : Item) (c : Call) : State := (at' it).onRelay fun r => { r with calls := [c] }

/-- A node with its last voice as given, at an item, with no call voices. -/
def withVoice (it : Item) (r : Voice) : State :=
  ((at' it).onVoice 7 fun _ => r).onClip fun c => { c with
    reserve := 0, clips := [{ id := 128, length := 48, stored := true, samples := [] }] }

/-- A voice playing the last clip for the node's operator. -/
def playing (st : VoiceState) (e : Ending) : Voice :=
  { Voice.cold with
    state := st, ending := e, playback := some { clip := 128, loop := false, owner := .direct, serial := 0 } }

theorem witness_StepTakesTheFront : ({ State.reset with pending := [.halt me] }).pending = .halt me :: [] := rfl

theorem witness_ResetPinStandsStill : (∀ straps, Instr.halt me ≠ .coldReset straps) ∧ Instr.halt me ≠ .resetPinAsserted := by
  constructor
  · intro _ h; cases h
  · intro h; cases h

theorem witness_ArrivalsOutsideLock_dropped : (linked .lost 0).ports.standsStill = false ∧ (linked .lost 0).link.upstream = some .a
    ∧ Port.b ≠ Port.a ∧ 62 ≤ (good (rawFrame 62)).hop.toNat ∧ 62 ≤ (good (rawFrame 255)).hop.toNat :=
  ⟨rfl, rfl, by decide, by show 62 ≤ (62 : U8).toNat; decide, by show 62 ≤ (255 : U8).toNat; decide⟩

theorem hop_good : (good (rawFrame 61)).hop.toNat < 62 := by show (61 : U8).toNat < 62; decide
theorem hop_bad : (bad (rawFrame 61)).hop.toNat < 62 := by show (61 : U8).toNat < 62; decide

theorem witness_ArrivalsOutsideLock_begins : (linked .lost 0).ports.standsStill = false ∧ (linked .lost 0).link.upstream = some .a
    ∧ (linked .lost 0).link.state = .lost ∧ State.reset.link.upstream = none ∧ State.reset.link.state = .unlocked :=
  ⟨rfl, rfl, rfl, rfl, rfl⟩
theorem witness_ArrivalsOutsideLock_timer : (linked .lost 0).ports.standsStill = false
    ∧ (linked .lost 0).link.upstream = none ∨ (linked .lost 0).link.upstream = some .a := .inr rfl
theorem witness_ArrivalsOutsideLock_counts : (linked .reacquiring 98).link.state = .reacquiring
    ∧ (linked .reacquiring 98).link.reacquire < 99 ∧ (linked .reacquiring 99).link.reacquire = 99 := by decide +kernel
theorem witness_LinkTimedBoundary : (linked .locked 0).ports.standsStill = false ∧ (linked .locked 0).link.state = .locked
    ∧ (linked .locked 0).link.upstream = some .a ∧ plain.rest = true := ⟨rfl, rfl, rfl, rfl⟩
theorem witness_LinkTimedBoundary_slot : ∀ o : Fin 40, (linked .locked 0).mix.outputs[o].source = .none := by decide +kernel
theorem witness_LinkTimedBoundary_send :
    let s := (linked .locked 0).onMix fun m => { m with outputs := put m.outputs 39 { source := .bus 31, slot := 63 } }
    24 ≤ (39 : Fin 40).val ∧ s.mix.outputs[(39 : Fin 40)].source ≠ .none
      ∧ ∀ q : Fin 40, 24 ≤ q.val → s.mix.outputs[q].source ≠ .none →
        s.mix.outputs[q].slot = s.mix.outputs[(39 : Fin 40)].slot → q = 39 := by decide +kernel
theorem witness_LocalTimedBoundary : State.reset.ports.standsStill = false ∧ State.reset.link.linkTimed = false
    ∧ plain.rest = true := ⟨rfl, rfl, rfl⟩
theorem witness_LinkLossBoundary : (linked .locked 0).link.state = .locked ∧ plain.rest = true
    ∧ ({ plain with order := [.lossEvent], rest := false }).order = [.lossEvent]
    ∧ ({ plain with order := [.lossEvent], rest := false }).rest = false := ⟨rfl, rfl, rfl, rfl⟩
theorem witness_LinkLossBoundary_whole : (linked .locked 0).between ∧ (linked .locked 0).msg.completed = none
    ∧ (∀ w ∈ (linked .locked 0).msg.resets, w.isWarm = false) ∧ (linked .locked 0).msg.events.length < 32 :=
  ⟨quiet_between rfl rfl, rfl, fun _ h => absurd h List.not_mem_nil, by decide⟩

/-- A line of a node at the levels, its candidate 20 boundaries old. -/
def pressed (taken : Option Bool) : State :=
  (at' .levels).onPorts fun p => { p with go := { taken := taken, candidate := some true, run := 20 } }

theorem witness_LevelTaken : (pressed (some false)).atItem .levels ∧ ((pressed (some false)).ports.line .go).candidate = some true
    ∧ 20 ≤ ((pressed (some false)).ports.line .go).run := ⟨at_of rfl rfl (by decide), rfl, Nat.le_refl 20⟩
theorem witness_LevelTaken_samples :
    let l : Line := { taken := some true, candidate := some false, run := 19 }
    let s := State.reset.onPorts fun p => { p with go := l }
    s.link.linkTimed = false ∧ (s.ports.line .go).taken ≠ some plain.pins.go ∧ (s.ports.line .go).candidate = some plain.pins.go
      ∧ (s.ports.line .go).run < 20 ∧ (s.ports.line (.ack 15)).candidate ≠ some false := by decide +kernel
theorem witness_LevelTaken_boundary (l : Line) : (State.reset.onPorts fun p => { p with go := l }).between
    ∧ ({ plain with rest := false }).order = [] := ⟨quiet_between rfl rfl, rfl⟩

theorem at_transitions (r : InputRecord) : (withInput r).atItem .transitions := at_of rfl rfl (by decide)

theorem witness_SupervisionTransitions_counts :
    let s := withInput (fed (some (.voice 7)) (some (.localIn 0)) .primary .primary 65535 65535 9)
    s.inputs[(63 : Fin 64)].state ≠ .idle ∧ s.inputs[(63 : Fin 64)].entry.source = some (.voice 7)
      ∧ s.sourceValid (.voice 7) = true ∧ s.inputs[(63 : Fin 64)].entry.spare = some (.localIn 0)
      ∧ s.sourceValid (.localIn 0) = false ∧ s.inputs[(0 : Fin 64)].state = .idle := by decide +kernel
theorem witness_SupervisionTransitions_carry :
    let r := fed (some (.voice 7)) (some (.localIn 0)) .primary .primary 0 9 0
    let s (x : InputRecord) := withInput x
    ((s { r with carried := none }).inputs[(63 : Fin 64)].carried ≠ some (.voice 7)
        ∧ (s { r with carried := none, lossCut := false }).inputs[(63 : Fin 64)].lossCut = false
        ∧ (s r).sourceValid (.voice 7) = true)
      ∧ (s { r with carried := none, lossCut := true }).inputs[(63 : Fin 64)].lossCut = true
      ∧ (s { r with state := .lost, carried := some (.voice 7) }).inputs[(63 : Fin 64)].state = .lost
      ∧ (s { InputRecord.cold with carried := some (.voice 7) }).inputs[(63 : Fin 64)].carried ≠ none := by decide +kernel
theorem witness_SupervisionTransitions_primaryToSpare :
    let s := withInput (fed (some (.localIn 0)) (some (.voice 7)) .primary .primary 3 0 0)
    s.atItem .transitions ∧ s.inputs[(63 : Fin 64)].entry.lossThreshold ≤ s.inputs[(63 : Fin 64)].invalidRun
      ∧ s.inputs[(63 : Fin 64)].state = .primary ∧ s.inputs[(63 : Fin 64)].active = .primary
      ∧ s.inputs[(63 : Fin 64)].entry.spare = some (.voice 7) ∧ s.sourceValid (.voice 7) = true := by
  refine ⟨at_transitions _, ?_⟩; decide +kernel
theorem witness_SupervisionTransitions_primaryToLost :
    let s := withInput (fed (some (.localIn 0)) none .primary .primary 3 0 0)
    s.inputs[(63 : Fin 64)].entry.lossThreshold ≤ s.inputs[(63 : Fin 64)].invalidRun
      ∧ s.inputs[(63 : Fin 64)].state = .primary ∧ s.inputs[(63 : Fin 64)].active = .primary
      ∧ s.inputs[(63 : Fin 64)].entry.spare = none := by decide +kernel
theorem witness_SupervisionTransitions_spareToPrimary :
    let s := withInput (fed (some (.voice 7)) (some (.localIn 0)) .spare .spare 3 0 0)
    s.inputs[(63 : Fin 64)].entry.lossThreshold ≤ s.inputs[(63 : Fin 64)].invalidRun
      ∧ s.inputs[(63 : Fin 64)].state = .spare ∧ s.inputs[(63 : Fin 64)].active = .spare
      ∧ s.inputs[(63 : Fin 64)].entry.source = some (.voice 7) ∧ s.sourceValid (.voice 7) = true := by decide +kernel
theorem witness_SupervisionTransitions_spareToLost :
    let s := withInput (fed (some (.localIn 0)) (some (.localIn 1)) .spare .spare 3 0 0)
    s.inputs[(63 : Fin 64)].entry.lossThreshold ≤ s.inputs[(63 : Fin 64)].invalidRun
      ∧ s.inputs[(63 : Fin 64)].state = .spare ∧ s.inputs[(63 : Fin 64)].active = .spare
      ∧ s.inputs[(63 : Fin 64)].entry.source = some (.localIn 0) ∧ s.sourceValid (.localIn 0) = false := by decide +kernel

theorem witness_SupervisionTransitions_auto :
    let s := withInput (fed (some (.voice 7)) (some (.localIn 0)) .spare .spare 2 9 0)
    s.inputs[(63 : Fin 64)].state = .spare ∧ s.inputs[(63 : Fin 64)].active = .spare
      ∧ s.inputs[(63 : Fin 64)].invalidRun < s.inputs[(63 : Fin 64)].entry.lossThreshold
      ∧ s.inputs[(63 : Fin 64)].entry.autoReturn = true ∧ s.inputs[(63 : Fin 64)].forced = false
      ∧ s.inputs[(63 : Fin 64)].entry.restoreThreshold ≤ s.inputs[(63 : Fin 64)].primaryRun
      ∧ s.sourceValid (.voice 7) = true := by decide +kernel
theorem witness_SupervisionTransitions_restore :
    let s := withInput (fed (some (.voice 7)) none .lost .primary 3 9 0)
    let r := withInput (fed (some (.localIn 0)) (some (.voice 7)) .lost .primary 3 8 9)
    s.inputs[(63 : Fin 64)].state = .lost ∧ s.inputs[(63 : Fin 64)].active = .primary
      ∧ s.inputs[(63 : Fin 64)].entry.restoreThreshold ≤ s.inputs[(63 : Fin 64)].primaryRun
      ∧ r.inputs[(63 : Fin 64)].state = .lost ∧ r.inputs[(63 : Fin 64)].active = .primary
      ∧ r.inputs[(63 : Fin 64)].primaryRun < r.inputs[(63 : Fin 64)].entry.restoreThreshold
      ∧ r.inputs[(63 : Fin 64)].entry.restoreThreshold ≤ r.inputs[(63 : Fin 64)].spareRun
      ∧ r.inputs[(63 : Fin 64)].entry.spare = some (.voice 7) ∧ r.sourceValid (.voice 7) = true := by decide +kernel

/-- A node between boundaries whose last input has the sources given. -/
def choosing (source spare : Option Src) : State := live.onInput 63 fun _ => fed source spare .primary .primary 0 0 0

theorem witness_InputSelectChecked_situation (a b : Option Src) : (choosing a b).between ∧ (choosing a b).hears me :=
  ⟨quiet_between rfl rfl, hears_of rfl rfl⟩
theorem witness_InputSelectChecked_operands : 64 ≤ (64 : U8).toNat ∧ 2 ≤ (2 : U8).toNat ∧ (63 : Fin 64).val = (63 : U8).toNat := by
  decide
theorem witness_InputSelectChecked_spare :
    (choosing none none).inputs[(63 : Fin 64)].entry.spare = none
      ∧ (choosing (some (.localIn 0)) (some (.voice 7))).inputs[(63 : Fin 64)].entry.spare ≠ none
      ∧ (choosing (some (.localIn 0)) (some (.voice 7))).sourceValid (.localIn 0) = false
      ∧ (choosing (some (.localIn 0)) (some (.voice 7))).sourceValid (.voice 7) = true := by decide +kernel

theorem witness_TalkChecked : live.between ∧ live.hears me ∧ 4 ≤ (4 : U8).toNat
    ∧ (3 : Fin 4).val = (3 : U8).toNat := ⟨quiet_live, hears_me, by decide, by decide⟩

/-- Of two TALKs of one group the later stands, and a group that none names keeps its latch (R65). -/
theorem witness_TalkChecked_applies :
    let s := State.reset.onMsg fun m => { m with talks := [(3, true), (3, false)] }
    s.msg.talks = [(3, true)] ++ (3, false) :: [] ∧ (∀ x ∈ ([] : List (Fin 4 × Bool)), x.1 ≠ 3) ∧ (∀ x ∈ s.msg.talks, x.1 ≠ 0)
      ∧ (runItem .talks s).mix.talk[(3 : Fin 4)].latch = false := by decide +kernel

theorem witness_LimiterKeepsThreshold :
    let s := State.reset.onBus 31 fun r => { r with entry := { r.entry with kind := .foldback, limiter := true } }
    s.mix.buses[(31 : Fin 32)].entry.kind = .foldback ∧ s.mix.buses[(31 : Fin 32)].entry.limiter = true := by decide +kernel

/-- A FOLDBACK bus with a duck of depth 0 and attack 1 (R21's law L4). -/
theorem witness_DuckStepLands : 1 ≤ 1 ∧ (0 : Nat) < 4194304 ∧ 4194304 ≤ 4194304 ∧ (419430 : Nat) < 4194304 := by decide

theorem witness_FadesStayBetween :
    let f : Fade := { target := .busGain 31, start := .linear 4194304, endCode := 0, frames := 600000, elapsed := 0, owner := none
                      serial := 0 }
    599999 < f.frames ∧ 47 < 48 ∧ f.start = .linear 4194304 ∧ ({ f with start := .level 900 }).start = .level 900 := by decide

theorem witness_InverseLookup : lin 1000 ≤ 13263554 ∧ (133 : Nat) < 134 := by decide +kernel

theorem witness_KeysLivenessAndGates :
    let s := State.reset.onTalk 3 fun t => { t with latch := true, entry := { t.entry with input := some 63 } }
    let r := s.onInput 63 fun x => { x with entry := { x.entry with talkGroup := some 3 } }
    s.mix.talk[(3 : Fin 4)].entry.input = some 63 ∧ s.inputs[(63 : Fin 64)].entry.talkGroup = none
      ∧ r.inputs[(63 : Fin 64)].entry.talkGroup = some 3 := by decide +kernel
theorem witness_KeysLivenessAndGates_ducks :
    let s := (State.reset.onBus 31 fun r => { r with entry := { r.entry with kind := .foldback, stopDuck := true } }).onMix
      fun m => { m with stopStands := true }
    let r := s.onTalk 3 fun t => { t with latch := true, entry := { t.entry with buses := 0x80000000, depth := 600 } }
    s.mix.buses[(31 : Fin 32)].entry.kind = .foldback ∧ (s.mix.buses[(31 : Fin 32)].entry.stopDuck = true ∧ s.mix.stopStands = true)
      ∧ (runItem .keys r).mix.talk[(3 : Fin 4)].live = true ∧ r.mix.talk[(3 : Fin 4)].entry.buses.getLsbD (31 : Fin 32).val = true
      ∧ lin r.mix.talk[(3 : Fin 4)].entry.depth = lin r.msg.node.stopDepth
      ∧ (runItem .keys r).mix.buses[(31 : Fin 32)].governing = some .stop
      ∧ State.reset.mix.buses[(31 : Fin 32)].entry.kind = .unused := by decide +kernel
theorem witness_OutputsAndZones_meters :
    let s := State.reset.onBus 31 fun r => { r with entry := { r.entry with kind := .foldback, limiter := true } }
    let r := State.reset.onBus 31 fun r => { r with entry := { r.entry with kind := .relay } }
    (s.mix.buses[(31 : Fin 32)].entry.kind = .foldback ∧ s.mix.buses[(31 : Fin 32)].entry.limiter = true)
      ∧ r.mix.buses[(31 : Fin 32)].entry.kind = .relay ∧ r.mix.buses[(0 : Fin 32)].entry.kind = .unused := by decide +kernel
theorem witness_OutputsAndZones :
    let c := { aCall with state := .onAir true }
    let k := { aCall with state := .onAir true, source := .clip 128, voice := some 7 }
    let s (d : Call) := (withCall .busMeters d).onZone 15 fun z => { z with call := some 5 }
    ((s c).relay.zones[(15 : Fin 16)].call.bind (s c).callOf = some c ∧ c.source = .input 3)
      ∧ ((s k).relay.zones[(15 : Fin 16)].call.bind (s k).callOf = some k ∧ k.voice = some 7)
      ∧ State.reset.relay.zones[(15 : Fin 16)].call = none ∧ State.reset.relay.zones[(15 : Fin 16)].tail = none
      ∧ (23 : Fin 40).val = (23 : Fin 24).val := by decide +kernel

theorem witness_TableWritesAccepted_refused : 63 < (64 : U8).toNat ∧ 39 < (40 : U8).toNat ∧ 31 < (32 : U8).toNat
    ∧ 15 < (16 : U8).toNat ∧ 3 < (4 : U8).toNat ∧ 7 < (8 : U8).toNat ∧ 0 < (1 : U8).toNat ∧ checkWindow ⟨0, 64, 0, 0⟩ = none := by
  decide
theorem witness_TableWritesAccepted_owner :
    (placed 64 (63 : U8).toNat [RawInput.mk ⟨1, 64⟩ ⟨0, 0⟩ 900 20 200 1 255]).any (fun x => (checkInput x.2).isNone) = true
      ∧ (placed 32 (31 : U8).toNat [RawBus.mk 4 900 0 1 840 200 1]).any (fun x => (checkBus x.2).isNone) = true
      ∧ (placed 40 (39 : U8).toNat [RawOutput.mk ⟨1, 32⟩ 63]).any (fun x => (checkOutput x.1 x.2).isNone) = true
      ∧ (placed 16 (15 : U8).toNat [RawZone.mk 32 900 900 700 50 200]).any (fun x => (checkZone x.2).isNone) = true
      ∧ (placed 4 (3 : U8).toNat [RawTalk.mk 64 1 780 20 300]).any (fun x => (checkTalk x.2).isNone) = true
      ∧ (placed 1 (0 : U8).toNat [RawNode.mk 63 95 0 0 500 2 5000 600 0]).any (fun x => (checkNode x.2).isNone) = true := by
  decide +kernel
theorem witness_TableWritesAccepted_claimed :
    let s := live.onMix fun m => { m with outputs := put m.outputs 24 { source := .bus 0, slot := 63 } }
    s.slotClash [.output 39 { source := .bus 31, slot := 63 }] = true := by decide +kernel
theorem witness_TableWritesAccepted_entries :
    allSome ((placed 64 (63 : U8).toNat [RawInput.mk ⟨1, 63⟩ ⟨2, 7⟩ 900 20 200 1 255]).map fun x =>
        (checkInput x.2).map (TableEntry.input x.1)) ≠ none
      ∧ allSome ((placed 32 (31 : U8).toNat [RawBus.mk 1 900 0 1 840 200 1]).map fun x =>
        (checkBus x.2).map (TableEntry.bus x.1)) ≠ none
      ∧ allSome ((placed 16 (15 : U8).toNat [RawZone.mk 31 900 900 700 50 200]).map fun x =>
        (checkZone x.2).map (TableEntry.zone x.1)) ≠ none
      ∧ allSome ((placed 4 (3 : U8).toNat [RawTalk.mk 63 1 780 20 300]).map fun x =>
        (checkTalk x.2).map (TableEntry.talk x.1)) ≠ none
      ∧ allSome ((placed 1 0 [RawNode.mk 64 95 0 0 500 2 5000 600 0]).map fun x =>
        (checkNode x.2).map TableEntry.node) ≠ none
      ∧ checkWindow ⟨63, 63, 30, 31⟩ ≠ none := by decide +kernel
theorem witness_TableWritesAccepted_output :
    allSome ((placed 40 (39 : U8).toNat [RawOutput.mk ⟨1, 31⟩ 63]).map fun x => (checkOutput x.1 x.2).map (TableEntry.output x.1))
        = some [.output 39 { source := .bus 31, slot := 63 }]
      ∧ live.slotClash [.output 39 { source := .bus 31, slot := 63 }] = false
      ∧ live.msg.holdOpen = false := by decide +kernel

/-- A node with a hold open and a number of entries staged. -/
def holding (n : Nat) : State :=
  live.onMsg fun m => { m with holdOpen := true, staged := List.replicate n (.voice 0 0) }

theorem witness_HeldWritesAreStaged (n : Nat) : (holding n).between ∧ (holding n).hears me ∧ (holding n).msg.holdOpen = true :=
  ⟨quiet_between rfl rfl, hears_of rfl rfl, rfl⟩
theorem witness_HeldWritesAreStaged_room :
    let taken := [TableEntry.input 63 InputRecord.cold.entry]
    (holding 255).msg.staged.length + (taken.filter fun e => !((holding 255).msg.staged.any fun x => x.sameKey e)).length ≤ 256
      ∧ 256 < (holding 256).msg.staged.length
          + (taken.filter fun e => !((holding 256).msg.staged.any fun x => x.sameKey e)).length := by decide +kernel

theorem witness_WritesApply_kinds :
    let s := State.reset.onBus 31 fun r => { r with entry := { r.entry with kind := .foldback } }
    let e : BusEntry := { s.mix.buses[(31 : Fin 32)].entry with kind := .relay }
    e.kind ≠ s.mix.buses[(31 : Fin 32)].entry.kind ∧ (e.kind = .foldback ∨ s.mix.buses[(31 : Fin 32)].entry.kind = .foldback) := by
  decide +kernel
theorem witness_WritesApply_order :
    let e : InputEntry := { InputRecord.cold.entry with source := some (.link 63), spare := some (.link 0) }
    let s := State.reset.onMsg fun m => { m with accepted := [.select 63 .spare, .write false (.input 63 e)] }
    let r := State.reset.onMsg fun m => { m with accepted := [.write false (.input 63 e), .select 63 .spare] }
    s.msg.accepted = [.select 63 .spare, .write false (.input 63 e)] ∧ e.source ≠ s.inputs[(63 : Fin 64)].entry.source
      ∧ r.msg.accepted = [.write false (.input 63 e), .select 63 .spare] ∧ e.spare ≠ none := by decide +kernel
theorem witness_WritesApply :
    let e : InputEntry := { InputRecord.cold.entry with source := some (.link 63) }
    e.source ≠ State.reset.inputs[(0 : Fin 64)].entry.source ∧ (Target.busGain 0 ≠ Target.crosspoint 0 0) := by decide +kernel

theorem witness_TableReadReplies : tableSize (8 : U8).toNat = some 1 ∧ (0 : U8).toNat < 1
    ∧ checkWindow ⟨0, 63, 0, 31⟩ ≠ none ∧ (∀ tag, Origin.broadcast ≠ .addressed tag) ∧ live.hears .broadcast :=
  ⟨by decide, by decide, by decide +kernel, fun _ h => (by cases h), hears_live _ fun _ h => (by cases h)⟩
theorem witness_TableReadReplies_meter : (95 : U8).toNat < 96 ∧ 95 < (96 : U8).toNat := by decide
theorem witness_TableReadReplies_returned : me = .addressed 7 ∧ (5 : U8).toNat < 96 ∧ min 255 (min (96 - 5) 91) = 91
    ∧ (5 ≤ (63 : Fin 64).val ∧ (63 : Fin 64).val < 5 + 91) ∧ ¬ 5 ≤ (4 : Fin 64).val
    ∧ 64 + (31 : Fin 32).val < 5 + 91 ∧ ¬ 5 ≤ (0 : Fin 64).val := by decide
theorem witness_TableReadReplies_beyond : tableSize (1 : U8).toNat = some 64 ∧ 64 ≤ (64 : U8).toNat
    ∧ checkWindow ⟨0, 0, 0, 32⟩ = none ∧ me = .addressed 7 := by decide

theorem witness_HoldMessages :
    let s := (at' .hold).onMsg fun m => { m with holdOpen := true, holdAge := 4999 }
    s.atItem .hold ∧ s.msg.holdOpen = true ∧ s.msg.node.holdLimit ≤ s.msg.holdAge + 1 :=
  ⟨at_of rfl rfl (by decide), rfl, Nat.le_refl 5000⟩
theorem witness_HoldMessages_counts :
    let s := (at' .hold).onMsg fun m => { m with holdOpen := true, holdAge := 4998 }
    s.msg.holdOpen = true ∧ s.msg.holdAge + 1 < s.msg.node.holdLimit ∧ (at' .hold).msg.holdOpen = false := by decide +kernel

theorem witness_CueStorePlacesRecord : checkCue (rawCue 99999) ≠ none ∧ checkCue (rawCue 100000) = none := by decide +kernel

/-- A cue with one action. -/
def aCue (n : Nat) : Cue := { number := n, follow := .none, wait := 0, actions := [.stop 7 0] }

/-- A node with two cues, the first standing by, at an item. -/
def listed (it : Item) : State := (at' it).onCue fun e => { e with cues := [aCue 3, aCue 99999], standby := some 3 }

theorem witness_CueStorePlacesRecord_space :
    let cues := List.replicate 513 (aCue 3)
    512 < cues.length ∧ (cues.take 512).length ≤ 512 := by decide +kernel
theorem witness_CuesRemovedAndRead_removes : (∃ c ∈ (listed .busMeters).cue.cues, c.number = (99999 : U32).toNat)
    ∧ (∀ c ∈ (listed .busMeters).cue.cues, c.number ≠ (4 : U32).toNat) ∧ (listed .busMeters).between ∧ (listed .busMeters).hears me :=
  ⟨⟨aCue 99999, by decide +kernel, by decide⟩, by decide +kernel, quiet_meters rfl rfl, hears_of rfl rfl⟩
theorem witness_CuesRemovedAndRead_reads : 99999 < (100000 : U32).toNat ∧ (99999 : U32).toNat ≤ 99999 := by decide
theorem witness_GoFires : (listed .requests).atItem .requests ∧ (listed .requests).hears me
    ∧ (listed .requests).cue.held = false ∧ (listed .requests).standbyCue = some (aCue 3)
    ∧ findCue (listed .requests).cue.cues (99999 : U32).toNat = some (aCue 99999) :=
  ⟨at_of rfl rfl (by decide), hears_of rfl rfl, rfl, by decide +kernel, by decide +kernel⟩
theorem witness_GoFires_guard :
    let s := { (listed .requests).onCue fun e => { e with lastFiring := some 3 } with boundaries := 503 }
    s.msg.node.guard ≤ s.boundaries - 3 := by decide +kernel
theorem witness_GoFires_refused :
    let s := (listed .requests).onCue fun e => { e with lastFiring := some 3 }
    (100000 : U32) ≠ 0xFFFFFFFF ∧ 99999 < (100000 : U32).toNat ∧ findCue s.cue.cues (4 : U32).toNat = none
      ∧ (at' .requests).standbyCue = none ∧ s.standbyCue = some (aCue 3) ∧ s.cue.held = false
      ∧ s.boundaries - 3 < s.msg.node.guard := by decide +kernel

/-- A node with a press of the GO line at hand. -/
def goPressed (s : State) : State := s.onPorts fun p => { p with goPressed := true }
theorem witness_GoFires_line :
    let s := goPressed (listed .goLine)
    let f := s.onCue fun e => { e with lastFiring := some 3 }
    s.ports.goPressed = true ∧ s.cue.held = false ∧ s.standbyCue = some (aCue 3) ∧ s.cue.lastFiring = none
      ∧ (s.onCue fun e => { e with held := true }).cue.held = true ∧ (goPressed (at' .goLine)).standbyCue = none
      ∧ f.cue.lastFiring = some 3 ∧ f.boundaries - 3 < f.msg.node.guard ∧ (at' .goLine).ports.goPressed = false := by
  decide +kernel

/-- A press of the GO line fires the standby, with cause GO_LINE and its one STOP, of a call voice, skipped (R88, R93, R95, R97). -/
theorem test_goLine :
    let t := runItem .goLine (goPressed (listed .goLine))
    t.msg.events.map (fun e => e.post.detail) = [[1, 2, 1], [3, 1]] ∧ t.cue.lastCue = some 3 ∧ t.ports.goPressed = false := by
  decide +kernel
theorem witness_StandbyHaltResume :
    let s := (withCall .requests { aCall with priority := 3, state := .onAir true })
    let r := (at' .requests).onCue fun e => { e with held := true }
    s.atItem .requests ∧ s.hears me ∧ s.stopIsOnAir = true ∧ r.atItem .requests ∧ r.hears me ∧ r.stopIsOnAir = false
      ∧ r.cue.held = true :=
  ⟨at_of rfl rfl (by decide), hears_of rfl rfl, by decide +kernel, at_of rfl rfl (by decide), hears_of rfl rfl
    , by decide +kernel, rfl⟩

theorem witness_StandbyHaltResume_pause :
    let s := (withVoice .transport (playing .playing .none)).onCue fun e => { e with held := true }
    let r := withVoice .transport (playing .paused .none)
    s.cue.held = true ∧ (7 : Fin 8).val < 8 - s.clip.reserve ∧ s.clip.voices[(7 : Fin 8)].state = .playing
      ∧ r.cue.held = false ∧ r.clip.voices[(7 : Fin 8)].state = .paused := by decide +kernel
theorem witness_noneWaiting (it : Item) : (listed it).msg.waiting = [] ∧ (listed it).relay.requests = []
    ∧ (listed it).stopIsOnAir = false ∧ (listed it).cue.held = false := ⟨rfl, rfl, rfl, rfl⟩

/-- A fade of the last voice's gain that has run its frames. -/
def faded : Fade := { target := .voiceGain 7, start := .linear 4194304, endCode := 0, frames := 50, elapsed := 50, owner := none
                      serial := 0 }

theorem witness_FadeCompletes :
    let s := (withVoice .completions (playing .stopping .stopFade)).onCue fun e => { e with fades := [faded] }
    s.atItem .completions ∧ s.fadeOf (.voiceGain 7) = some faded ∧ faded.frames ≤ faded.elapsed
      ∧ s.clip.voices[(7 : Fin 8)].ending = .stopFade ∧ s.clip.voices[(7 : Fin 8)].pending = none :=
  ⟨at_of rfl rfl (by decide), by decide +kernel, by decide, by decide +kernel, by decide +kernel⟩

theorem witness_FadeCompletes_frames :
    let s (k : Nat) (held : Bool) := live.onCue fun e => { e with fades := [{ faded with elapsed := k }], held := held }
    (s 0 true).fadeOf (.voiceGain 7) = some { faded with elapsed := 0 } ∧ (s 0 true).cue.held = true
      ∧ (s 49 false).fadeOf (.voiceGain 7) = some { faded with elapsed := 49 } ∧ (s 49 false).cue.held = false
      ∧ ({ faded with elapsed := 49 }).elapsed < faded.frames ∧ ({ faded with elapsed := 49 }).elapsed = 48 + 1 := by
  decide +kernel

/-- A follow of the cue before. -/
def aFollow (timing : Bool) (remaining : Nat) : Follow :=
  { cue := 2, kind := .afterComplete, timing := timing, items := [], wait := 600000, remaining := remaining, since := 2, serial := 1 }

theorem witness_FollowTimer :
    let s := (at' .followTiming).onCue fun e => { e with follow := some (aFollow false 0) }
    let r := (listed .follow).onCue fun e => { e with follow := some (aFollow true 1) }
    s.cue.follow = some (aFollow false 0) ∧ r.cue.follow = some (aFollow true 1) ∧ r.cue.held = false
      ∧ (aFollow true 1).since < r.boundaries ∧ r.standbyCue = some (aCue 3) := by decide +kernel
theorem witness_FollowTimer_steps :
    let s (n : Nat) := (at' .follow).onCue fun e => { e with follow := some (aFollow true n) }
    (s 2).cue.follow = some (aFollow true 2) ∧ (aFollow true 2).since < (s 2).boundaries ∧ (s 2).cue.held = false
      ∧ 1 < (aFollow true 2).remaining ∧ ((s 2).onCue fun e => { e with held := true }).cue.held = true := by decide +kernel
theorem witness_FollowTimer_situation : (at' .followTiming).atItem .followTiming ∧ (at' .follow).atItem .follow
    ∧ (at' .follow).cue.standby = none ∧ (listed .follow).atItem .follow :=
  ⟨at_of rfl rfl (by decide), at_of rfl rfl (by decide), rfl, at_of rfl rfl (by decide)⟩

theorem witness_PlaybacksEnd :
    let s := fun e ran k => withVoice .ends { playing .stopping e with ranOut := ran, cutElapsed := k }
    (s .cutOut false 4).clip.voices[(7 : Fin 8)].state ≠ .idle ∧ 4 ≤ (s .cutOut false 4).clip.voices[(7 : Fin 8)].cutElapsed
      ∧ (s .cutOut true 1).clip.voices[(7 : Fin 8)].ranOut = true
      ∧ (s .stopFade true 0).clip.voices[(7 : Fin 8)].ranOut = true
      ∧ (s .callCut false 0).clip.voices[(7 : Fin 8)].ending = .callCut := by decide +kernel
theorem witness_PlaybacksEnd_situation (r : Voice) : (withVoice .ends r).atItem .ends := at_of rfl rfl (by decide)

/-- A node at an item, its last voice playing for the firing whose follow counts its items: that voice and its fade. -/
def counting (it : Item) (st : VoiceState) (e : Ending) (serial : Nat) : State :=
  (withVoice it { playing st e with playback := some { clip := 128, loop := false, owner := .cue 2, serial := 1 } }).onCue
    fun c => { c with
      fades := [{ faded with owner := some 2, serial := serial }]
      follow := some { aFollow false 0 with items := [.fade (.voiceGain 7), .voice 7, .voice 0] } }

/-- What closes the items of R99: a STOP fade that completes, and a write, a fade of another source and a stop at once; a fade of the
same firing closes none. -/
theorem test_itemsClose :
    let items (t : State) := t.cue.follow.map Follow.items
    items ((counting .completions .stopping .stopFade 1).completeTarget (.voiceGain 7)) = some [.voice 0]
      ∧ items ((counting .busMeters .playing .none 1).applyEntry (.voice 7 0)) = some [.voice 7, .voice 0]
      ∧ items ((counting .requests .playing .none 1).stopVoice 7 50 none 0) = some [.voice 7, .voice 0]
      ∧ items ((counting .requests .playing .none 1).stopVoice 7 0 none 0) = some [.voice 0]
      ∧ items ((counting .requests .playing .none 1).stopVoice 7 50 (some 2) 1)
        = some [.fade (.voiceGain 7), .voice 7, .voice 0] := by decide +kernel

theorem witness_ReserveChanges :
    (withVoice .reserve Voice.cold).atItem .reserve
      ∧ (withVoice .reserve Voice.cold).clip.reserve ≠ (withVoice .reserve Voice.cold).msg.node.reserve
      ∧ ∀ v : Fin 8, (withVoice .reserve Voice.cold).clip.voices[v].state = .idle
          ∧ (withVoice .reserve Voice.cold).clip.voices[v].pending = none :=
  ⟨at_of rfl rfl (by decide), by decide +kernel, by decide +kernel⟩

/-- A capture that has stored its length. -/
def aCapture : Capture := { running := true, clip := 128, source := .link 63, length := 48, count := 48 }

/-- A node with that capture, at an item. -/
def capturing (it : Item) : State := (at' it).onClip fun c => { c with
  capture := some aCapture, clips := [{ id := 128, length := 48, stored := false, samples := [] }] }

theorem witness_CapturesArmAndComplete_done : (capturing .capture).atItem .capture ∧ (capturing .capture).clip.capture = some aCapture
    ∧ aCapture.running = true ∧ aCapture.count = aCapture.length := ⟨at_of rfl rfl (by decide), rfl, rfl, rfl⟩
theorem witness_CapturesArmAndComplete_frames :
    let c := { aCapture with running := false, count := 0 }
    let s (valid : Bool) := ((capturing .capture).onClip fun p => { p with capture := some c }).onLink fun l =>
      { l with slotValid := Vector.replicate 64 valid }
    (s true).clip.capture = some c ∧ (s true).sourceValid c.source = true ∧ (s false).sourceValid c.source = false
      ∧ (∀ v, c.source ≠ .voice v) ∧ (∀ i, ({ c with source := .localIn 7 }).source ≠ .link i) := by decide +kernel
theorem witness_CapturesArmAndComplete_arms : clipId 128 = some 128 ∧ checkCaptureSource ⟨1, 63⟩ = some (.link 63)
    ∧ live.clip.capture = none ∧ (∀ c ∈ live.clip.clips, c.id ≠ 128)
    ∧ (capturing .busMeters).clip.capture ≠ none := by decide +kernel
theorem witness_CapturesArmAndComplete_range : 128 < (129 : U8).toNat ∧ checkCaptureSource ⟨1, 64⟩ = none
    ∧ checkCaptureSource ⟨3, 0⟩ = none := by decide
theorem witness_CapturesArmAndComplete_room :
    let s := live.onClip fun c => { c with clips := [{ id := 1, length := 4194257, stored := true, samples := [] }] }
    s.clip.capture = none ∧ (∃ c ∈ s.clip.clips, c.id = 1) ∧ 4194304 - (s.clip.clips.map Clip.length).sum < 48 := by
  decide +kernel
theorem witness_ClipsDiscarded : (capturing .busMeters).between ∧ (capturing .busMeters).hears me
    ∧ (capturing .busMeters).clip.capture = some aCapture ∧ (withVoice .busMeters Voice.cold).between ∧ (withVoice .busMeters Voice.cold).hears me :=
  ⟨quiet_meters rfl rfl, hears_of rfl rfl, rfl, quiet_meters rfl rfl, hears_of rfl rfl⟩
theorem witness_ClipsDiscarded_stored : ((withVoice .busMeters Voice.cold).clipRecord 128).any Clip.stored = true
    ∧ (∀ v : Fin 8, (withVoice .busMeters Voice.cold).clip.voices[v].uses 128 = false)
    ∧ (∀ k ∈ (withVoice .busMeters Voice.cold).relay.calls, k.source ≠ .clip 128) := by decide +kernel

theorem witness_VoicePlayBegins (r : Voice) :
    (withVoice .requests r).atItem .requests ∧ (withVoice .requests r).hears me ∧ (withVoice .requests r).cue.held = false :=
  ⟨at_of rfl rfl (by decide), hears_of rfl rfl, rfl⟩
theorem witness_VoicePlayBegins_operands :
    let s := (withVoice .requests (playing .playing .none)).onMsg fun m => { m with node := { m.node with reserve := 0 } }
    (7 : Fin 8).val = (7 : U8).toNat ∧ (s.storedClip 128).isSome = true ∧ (7 : Fin 8).val < 8 - max s.clip.reserve s.msg.node.reserve
      ∧ s.clip.voices[(7 : Fin 8)].state ≠ .idle ∧ s.cue.held = false := by decide +kernel
theorem witness_VoicePlayBegins_refused :
    let s := withVoice .requests Voice.cold
    let low := 8 - max s.clip.reserve s.msg.node.reserve
    7 < (8 : U8).toNat ∧ 128 < (129 : U8).toNat ∧ 2 ≤ (2 : U8).toNat ∧ low ≤ (6 : Fin 8).val ∧ (5 : Fin 8).val < low
      ∧ (s.onCue fun e => { e with held := true }).cue.held = true ∧ s.cue.held = false
      ∧ (∀ c ∈ s.clip.clips, c.id = 127 → c.stored = false) := by decide +kernel
theorem witness_VoiceStopFades_refused : 8 - (at' .requests).clip.reserve ≤ (6 : Fin 8).val
    ∧ (5 : Fin 8).val < 8 - (at' .requests).clip.reserve ∧ (at' .requests).clip.voices[(5 : Fin 8)].state = .idle := by
  decide +kernel
theorem witness_VoiceStopFades :
    let s := withVoice .requests (playing .playing .none)
    (7 : Fin 8).val < 8 - s.clip.reserve ∧ s.clip.voices[(7 : Fin 8)].state = .playing ∧ s.fadeRoom (.voiceGain 7) = true := by
  decide +kernel
theorem witness_VoiceStopFades_forms :
    let full := (withVoice .requests (playing .stopping .stopFade)).onCue fun e => { e with
      fades := List.replicate 256 { faded with target := .busGain 31 } }
    let cut := withVoice .requests (playing .stopping .cutOut)
    full.clip.voices[(7 : Fin 8)].state = .stopping ∧ full.clip.voices[(7 : Fin 8)].ending = .stopFade
      ∧ full.fadeRoom (.voiceGain 7) = false ∧ (withVoice .requests (playing .paused .none)).clip.voices[(7 : Fin 8)].state = .paused
      ∧ cut.clip.voices[(7 : Fin 8)].state = .stopping ∧ cut.clip.voices[(7 : Fin 8)].ending = .cutOut := by decide +kernel

theorem witness_CallPlaced :
    checkCall rawCall ≠ none ∧ (checkCall rawCall).bind (live.callRefusal ·) = none
      ∧ checkCall { rawCall with source := ⟨3, 0⟩ } = none
      ∧ (checkCall { rawCall with source := ⟨1, 128⟩ }).bind (live.callRefusal ·) = some .notFound := by decide +kernel
theorem witness_CallPlaced_refused :
    let c : CallSpec := { priority := 3, zones := 1, source := .clip 128, ackRequired := false, repeats := 0, waitLimit := 100
                          ackTimeout := 1000, maxOnAir := 1 }
    let stored := withVoice .busMeters Voice.cold
    let holding (p : Fin 4) (n : Nat) := live.onRelay fun r => { r with calls := List.replicate n { aCall with priority := p } }
    checkCall { rawCall with priority := 3, zones := 1, source := ⟨1, 128⟩ } ≠ none
      ∧ (c.priority = 3 ∧ stored.clip.reserve = 0) ∧ live.clip.reserve ≠ 0
      ∧ (∀ d ∈ live.clip.clips, d.id = 128 → d.stored = false)
      ∧ (∃ d ∈ stored.clip.clips, d.id = 128 ∧ d.stored = true)
      ∧ ((holding 3 1).relay.calls.any fun d => d.priority == 3) = true
      ∧ 16 ≤ ((holding 2 16).relay.calls.filter fun d => d.priority != 3).length
      ∧ ¬ 16 ≤ ((holding 2 15).relay.calls.filter fun d => d.priority != 3).length := by decide +kernel

/-- A refused CALL PLACE without a reply posts CALL_REFUSED with its code, NOT_FOUND 7 here (R136, Table 9-5). -/
theorem test_callRefused :
    (after (.callPlace .broadcast { rawCall with source := ⟨1, 128⟩ }) live).msg.events.map (fun e => e.post.detail)
      = [[7]] := by decide +kernel

theorem lawful_one (it : Item) (c : Call) : (withCall it c).callsLawful := by
  have h : (withCall it c).relay.calls = [c] := rfl
  refine ⟨by rw [h]; simp, ?_, ?_⟩
  · rw [h]; exact Nat.le_trans (List.length_filter_le _ _) (show 1 ≤ 16 by decide)
  · rw [h]; exact Nat.le_trans (List.length_filter_le _ _) (Nat.le_refl 1)

theorem witness_calls (it : Item) (c : Call) (h : it ∉ needs it) : (withCall it c).atItem it ∧ (withCall it c).callsLawful
    ∧ (withCall it c).hears me ∧ c ∈ (withCall it c).relay.calls :=
  ⟨at_of rfl rfl h, lawful_one it c, hears_of rfl rfl, List.mem_singleton.mpr rfl⟩
theorem witness_callItems : Item.relayRequests ∉ needs .relayRequests ∧ Item.relayEnds ∉ needs .relayEnds
    ∧ Item.relayAcks ∉ needs .relayAcks ∧ Item.relayWaits ∉ needs .relayWaits ∧ Item.relayStops ∉ needs .relayStops
    ∧ Item.relaySchedule ∉ needs .relaySchedule ∧ Item.relaySpeak ∉ needs .relaySpeak := by decide
theorem witness_CallsEndedOnRequest : (withCall .relayRequests aCall).relay.requests = [] ∧ aCall.id = (5 : U16).toNat
    ∧ aCall.source = .input 3 ∧ aCall.state = .waiting ∧ ({ aCall with state := .onAir true }).allAcked = false := by decide +kernel
theorem witness_CallsEndedOnRequest_refused :
    (∀ c ∈ (withCall .relayRequests aCall).relay.calls, c.id ≠ (4 : U16).toNat)
      ∧ ({ aCall with source := .clip 128 }).source = .clip 128 ∧ ({ aCall with state := .awaitAck }).state = .awaitAck := by
  decide +kernel
theorem witness_OnAirLimitEndsCall :
    let c := { aCall with state := .onAir true }
    (withCall .relayEnds c).relay.reports = [] ∧ c.since < (withCall .relayEnds c).boundaries ∧ c.maxOnAir ≤ c.onAirCount + 1 := by
  decide +kernel
theorem witness_AckTimeoutRepeats :
    let c := { aCall with state := .awaitAck }
    c.since < (withCall .relayAcks c).boundaries ∧ c.ackTimeout ≤ c.ackCount + 1 ∧ c.repeats = 0 + 1
      ∧ ({ c with repeats := 0 }).repeats = 0 := by decide +kernel
theorem witness_WaitingCallExpires : aCall.priority ≠ 3 ∧ aCall.fromPass ≤ (withCall .relayWaits aCall).boundaries
    ∧ aCall.waitLimit ≤ aCall.waitCount + 1 := by decide +kernel
theorem witness_ShowStopTakesTheShow :
    let c := { aCall with priority := 3 }
    c.priority = 3 ∧ c.state = .waiting ∧ c.fromPass ≤ (withCall .relayStops c).boundaries ∧ c.source = .input 3
      ∧ 8 - (withCall .relayStops c).clip.reserve ≤ (6 : Fin 8).val ∧ (withCall .relayStops c).changesSide 6 = false := by
  decide +kernel

/-- A show-stop call that waits, and two calls that it finds ON_AIR. -/
def stopping (source : CallSource) (others : List Call) : State :=
  (at' .relayStops).onRelay fun r => { r with
    calls := others ++ [{ aCall with id := 9, priority := 3, source := source, zones := 1 }] }

/-- A live call of zone 0, and a clip call of another zone whose voice is the lowest of the two call voices. -/
def cutByStop : List Call :=
  [{ aCall with zones := 3, state := .onAir true }
   , { aCall with id := 6, zones := 0x8000, source := .clip 128, voice := some 6, state := .onAir false, passes := 3 }
   , { aCall with id := 7, zones := 0x4000, source := .clip 128, voice := some 7, state := .onAir false }]

theorem witness_ShowStopTakesTheShow_cuts :
    let s := stopping (.clip 128) cutByStop
    let live := cutByStop.headD aCall
    s.atItem .relayStops ∧ s.callsLawful ∧ s.stopVoiceFor 9 = .start 6 ∧ (s.servedCall 6).map Call.id = some 6
      ∧ live.isOnAir = true ∧ live.zones &&& 1 ≠ 0 ∧ s.cue.held = false
      ∧ (s.onClip fun p => { p with reserve := 0 }).clip.reserve = 0 := by
  refine ⟨at_of rfl rfl (by decide), ⟨by decide, by decide, by decide⟩, ?_⟩
  decide +kernel

/-- The live call in the stop's zone and the call whose voice it takes are cut, the third goes on (R150, R151). -/
theorem test_showStopCuts :
    let t := runItem .relayStops (stopping (.clip 128) cutByStop)
    t.relay.calls.map (fun c => (c.id, c.state)) = [(6, .waiting), (7, .onAir false), (9, .onAir true)]
      ∧ t.msg.events.map (fun e => (e.post.kind, e.post.detail))
        = [(.callCut, [0, 9]), (.callEnded, [3, 1]), (.cueHeld, [1]), (.showStopOnAir, [0, 1])] := by decide +kernel
theorem witness_CallGoesOnAir :
    (withCall .relaySchedule aCall).zonesOpen aCall = true
      ∧ (withCall .relaySchedule { aCall with source := .clip 128 }).freeCallVoice 5 = some 6
      ∧ ∀ d ∈ (scheduleOrder (withCall .relaySchedule aCall).relay.calls).takeWhile (fun d => d.id != aCall.id),
          d.state ≠ .waiting ∨ d.priority = 3 := by decide +kernel
theorem witness_CallGoesOnAir_passes :
    let late := { aCall with id := 6, passes := 2 }
    (withCall .relaySchedule aCall).zonesOpen aCall = true ∧ aCall.passes < 2 ∧ late.passes = 2
      ∧ 3 ≤ ({ aCall with passes := 3 }).passes
      ∧ (withCall .relaySchedule { aCall with fromPass := 4 }).boundaries < ({ aCall with fromPass := 4 }).fromPass
      ∧ ((withCall .relaySchedule { aCall with source := .clip 128 }).onClip fun p => { p with reserve := 0 }).freeCallVoice 5
          = none := by decide +kernel
theorem witness_CallSpeaks_duck :
    let s := (at' .relayDucks).onZone 15 fun z => { z with call := some 5, wasOnAir := true }
    s.relay.zones[(15 : Fin 16)].wasOnAir = true ∧ s.relay.zones[(0 : Fin 16)].wasOnAir = false
      ∧ (runItem .relayDucks s).relay.zones[(15 : Fin 16)].duckState = .attacking := by decide +kernel
theorem witness_CallSpeaks :
    let c := { aCall with state := .onAir false, source := .clip 128, voice := some 6 }
    let s := (withCall .relaySpeak c).onRelay fun r =>
      { r with zones := Vector.replicate 16 { Zone.cold with duckEnd := 419430 } }
    s.callOf (5 : U16).toNat = some c ∧ c.since < s.boundaries ∧ s.voiceFree c.id 6 = true
      ∧ ∀ z : Fin 16, s.relay.zones[z].duckEnd = lin s.relay.zones[z].entry.duckDepth := by decide +kernel
theorem witness_CallSpeaks_voiceless :
    let s := (withCall .relaySpeak { aCall with state := .onAir false, source := .clip 128 }).onClip fun p => { p with reserve := 0 }
    ∀ v, s.voiceFree 5 v = false := by decide +kernel
theorem witness_PressTakenOnce :
    let s := State.reset.onPorts fun p => { p with ack := Vector.replicate 16 { Line.cold with taken := some true } }
    s.ports.ack[(15 : Fin 16)].taken = some true ∧ s.relay.zones[(15 : Fin 16)].latch = false
      ∧ State.reset.ports.ack[(15 : Fin 16)].taken ≠ some true
      ∧ (s.onZone 15 fun r => { r with latch := true }).relay.zones[(15 : Fin 16)].latch = true := by decide +kernel
theorem witness_PressTakenOnce_lamp : aCall.zones.getLsbD (15 : Fin 16).val = true
    ∧ ({ aCall with acks := Vector.replicate 16 .pending }).acks[(15 : Fin 16)] = .pending := by decide +kernel

theorem witness_PressTakenOnce_answers :
    let asked := { aCall with acks := put aCall.acks 15 .pending }
    let onAir := { asked with state := .onAir true }
    let more := { asked with state := .awaitAck }
    let awaits := { more with zones := 0x8000 }
    let s := (withCall .relayPresses onAir).onZone 15 fun z => { z with call := some 5 }
    (onAir.isOnAir = true ∧ s.relay.zones[(15 : Fin 16)].call = some onAir.id ∧ onAir.acks[(15 : Fin 16)] = .pending
        ∧ onAir ∈ s.relay.calls)
      ∧ ((withCall .relayPresses awaits).relay.calls = [] ++ awaits :: [] ∧ awaits.isOnAir = false
        ∧ awaits.zones.getLsbD (15 : Fin 16).val = true
        ∧ ∀ y : Fin 16, y ≠ 15 → awaits.zones.getLsbD y.val = true → awaits.acks[y] = .acked)
      ∧ (more.state = .awaitAck ∧ more.zones.getLsbD (0 : Fin 16).val = true ∧ more.acks[(0 : Fin 16)] ≠ .acked)
      ∧ State.reset.relay.calls = [] := by decide +kernel

/-- A post of the cue engine, and then one of the input supervisor. -/
def fromCue : EventRecord := { stamp := 1, post := cueFiredPost 5 .message 0 }
/-- The second of them. -/
def fromInput : EventRecord := { stamp := 1, post := lossPost 63 .primary false }
theorem witness_PostsAreKept :
    let s := live.onMsg fun m => { m with late := [.inputs, .link], coming := [fromCue, fromInput] }
    s.msg.late = .inputs :: [.link] ∧ EventKind.inputLoss.poster = some .inputs
      ∧ (∀ b ∈ s.msg.late, EventKind.cueFired.poster ≠ some b) ∧ (∀ b ∈ s.msg.late, EventKind.showReset.poster ≠ some b)
      ∧ s.msg.coming = [fromCue] ++ fromInput :: []
      ∧ fromInput.post.kind.poster = some .inputs ∧ (∀ d ∈ [fromCue], d.post.kind.poster ≠ some .inputs)
      ∧ (∀ e ∈ s.msg.coming, e.post.kind.poster ≠ some .link) ∧ live.msg.late = [] := by decide +kernel

theorem witness_StatusReadChangesNothing : live.between ∧ live.hears me ∧ 8 < (9 : U8).toNat ∧ 3 ≤ (8 : U8).toNat :=
  ⟨quiet_live, hears_me, by decide, by decide⟩
theorem witness_WarmResetEmpties : (at' .warmReset).atItem .warmReset ∧ (at' .warmReset).hears me
    ∧ ∀ w ∈ (at' .warmReset).msg.resets, w.isWarm = false :=
  ⟨at_of rfl rfl (by decide), hears_of rfl rfl, fun _ h => absurd h List.not_mem_nil⟩
theorem witness_ShowResetClears : (at' .showReset).atItem .showReset ∧ (at' .showReset).hears me
    ∧ (∀ w ∈ (at' .showReset).msg.resets, w.isWarm = true) ∧ (at' .showReset).lawL3 :=
  ⟨at_of rfl rfl (by decide), hears_of rfl rfl, fun _ h => absurd h List.not_mem_nil, by decide, by decide +kernel⟩

/-- A node that waits with one message at each of its owners. -/
def waitingAt (it : Item) : State :=
  ((at' it).onMsg fun m => { m with
    waiting := [{ origin := .broadcast, place := none, request := .halt }]
    resets := [{ origin := .broadcast, place := none, request := .reset 0 }] }).onRelay fun r => { r with
      requests := [{ cancel := true, id := 5, place := none }] }

theorem witness_WaitingTakenFirst : (waitingAt .requests).atItem .requests ∧ (waitingAt .requests).msg.waiting ≠ []
    ∧ (waitingAt .relayRequests).atItem .relayRequests ∧ (waitingAt .relayRequests).relay.requests ≠ []
    ∧ (waitingAt .warmReset).atItem .warmReset ∧ (waitingAt .showReset).atItem .showReset :=
  ⟨at_of rfl rfl (by decide), List.cons_ne_nil _ _, at_of rfl rfl (by decide), List.cons_ne_nil _ _
    , at_of rfl rfl (by decide), at_of rfl rfl (by decide)⟩

/-- A RESET of mode 2, complete at `execute`, with its place kept. -/
def badReset : State :=
  live.onMsg fun m => { m.placed me with completed := some { origin := me, place := some m.nextPlace, body := [24, 2] } }

theorem witness_WaitingTakenFirst_reset : 2 ≤ (2 : U8).toNat
    ∧ badReset.msg.completed = some { origin := me, place := some 0, body := [24, 2] }
    ∧ (runItem .execute badReset).msg.waiting = [{ origin := me, place := some 0, request := .reset 2 }] := by decide +kernel

/-- Its check falls at the boundary: its place waits until then, and is answered RANGE there (R175, R176, R187). -/
theorem test_resetMode :
    (runItem .execute badReset).msg.replies.map (·.body) = [none]
      ∧ (runItem .requests (runItem .execute badReset)).msg.replies.map (·.body) = [some (byte 4)]
      ∧ (runItem .execute badReset).msg.resets = [] := by decide +kernel

theorem witness_ActionsOfACue :
    let s := withVoice .requests Voice.cold
    let full := s.onCue fun e => { e with fades := List.replicate 256 faded }
    (∃ u, s.perform 1 1 (.move (.busGain 31) 0 600000 .linear) = .ok u)
      ∧ s.perform 1 1 (.play 5 127 900 false) = .error .clipMissing
      ∧ (5 : Fin 8).val < 8 - max s.clip.reserve s.msg.node.reserve
      ∧ s.fadeOf (.busGain 31) = none ∧ s.cue.fades.length < 256
      ∧ full.fadeOf (.busGain 31) = none ∧ 256 ≤ full.cue.fades.length ∧ full.fadeOf (.voiceGain 7) = some faded :=
  ⟨⟨_, rfl⟩, by decide +kernel, by decide +kernel, by decide +kernel, by decide +kernel, by decide +kernel, by decide +kernel
    , by decide +kernel⟩

/-- A cell of a message for the node, with flags, sequence number, length and content as given. -/
def cellOf (flags length : U8) : Cell := { noCell with address := 1, flags := flags, tag := 9, length := length }

/-- A node that holds a frame, checked, with a request cell, and a partial message of some cells. -/
def receiving (c : Cell) (partially : Option Nat) : State :=
  ((at' .cell).onLink fun l => { l with frame := some { rawFrame 0 with request := c }, checked := true }).onMsg fun m => { m with
    assembler := partially.map fun n => { destination := 1, tag := 9, cells := n, expected := n % 16, body := [] } }

theorem witness_RequestCellsBecomeMessages :
    let long := receiving (cellOf 0x0A 28) (some 10)
    let begin := receiving (cellOf 0x80 28) none
    long.link.frame.isSome = true ∧ long.link.checked = true ∧ long.msg.address = some 1 ∧ (cellOf 0x0A 28).start = false
      ∧ (cellOf 0x0A 28).sequence = 10 ∧ long.msg.assembler.isSome = true ∧ (cellOf 0x80 28).start = true
      ∧ begin.msg.assembler = none ∧ 28 < (cellOf 0x80 29).length.toNat ∧ (cellOf 0x80 28).length.toNat ≤ 28 := by decide +kernel
theorem witness_RequestCellsBecomeMessages_body : parseBody [25] = .error .unknownKind ∧ parseBody [8, 0, 0, 0, 1] = .ok (.standby 1) := by
  decide
theorem witness_RequestCellsBecomeMessages_overrun :
    let s := live.onMsg fun m => { m with replies := List.replicate 4 { place := 0, tag := 1, body := none, completedAt := 0, cellsSent := 0 } }
    s.between ∧ s.reached (.addressed 1) = true ∧ 4 ≤ s.msg.replies.length := ⟨quiet_between rfl rfl, rfl, Nat.le_refl 4⟩

theorem witness_ForwardedFrameCarries :
    let r : Reply := { place := 0, tag := 9, body := some (List.replicate 276 0), completedAt := 2, cellsSent := 9 }
    let s := (receiving noCell none).onMsg fun m => { m with replies := [r] }
    s.link.frame.isSome = true ∧ s.msg.address = some 1 ∧ (1 : U8).toNat < 64 ∧ r.completedAt < s.boundaries
      ∧ s.link.checked = true ∧ (rawFrame 0).damaged = false ∧ (rawFrame 0).answer.address = 0 := by decide +kernel
theorem witness_BodiesReadBack : (Request.cueStore (rawCue 5)).wellFormed = true := by decide +kernel

/-- The supervision events of a boundary may come before the cue engine's, which the cue engine's late posts bring about (R184). -/
theorem test_latePosts :
    let s := live.onMsg fun m => { m with late := [.inputs, .cue], coming := [fromCue, fromInput] }
    (runItem .latePosts s).msg.events.map (fun e => e.post.kind) = [.inputLoss, .cueFired] := by decide +kernel

/-- The clips that end one frame may reach the message controller with those of inputs and buses among each other (R184). -/
theorem test_meters :
    let clip (p : Post) : EventRecord := { stamp := 1, post := p }
    let s := live.onMsg fun m => { m with
      frameLate := [.inputs, .mix], coming := [clip (inputClipPost 0), clip (inputClipPost 1), clip (busClipPost 2)] }
    (runItem .meters s).msg.events.map (fun e => e.post) = [inputClipPost 0, busClipPost 2, inputClipPost 1] := by
  decide +kernel

/-- The duck state of a zone is sent in the order of R133, a dark lamp as 1 (R148, log entry 10). -/
theorem test_zoneStatus : (zoneStatus ((at' .busMeters).onZone 0 fun z => { z with duckState := .releasing }) 0)[5]? = some 2
    ∧ (zoneStatus (at' .busMeters) 0)[12]? = some 1 := by decide +kernel

/-- A voice whose cut-out is over is IDLE with the transport factor of its last sample, 0 (Table 6-3, R129). -/
theorem test_factorStays :
    let r : Voice := { Voice.cold with state := .stopping, ending := .callCut, factorEnd := 0 }
    ((State.reset.onVoice 7 fun _ => r).endVoice 7 .cut).clip.voices[(7 : Fin 8)].factorEnd = 0 := by decide +kernel

/-- A step from a state that keeps the laws, for the invariants. -/
theorem witness_Invariants : ∃ s t : State, s.pending ≠ [] ∧ step s = .next t ∧ s.lawL3 ∧ s.lawL5 ∧ s.lawL7 ∧ s.lawL11
    ∧ s.storesBounded ∧ s.placesLawful := by
  refine ⟨{ live with pending := [.holdOn me] }, after (.holdOn me) live, by simp, rfl, ?_, ?_, ?_, ?_, ?_, ?_⟩
  · exact ⟨by decide, by decide +kernel⟩
  · show _ ≤ _; decide +kernel
  · exact ⟨⟨by decide +kernel, by decide, by decide⟩, fun h => absurd h (by decide +kernel)⟩
  · exact ⟨⟨by decide +kernel, by decide, by decide +kernel⟩, fun _ h => (by cases h)⟩
  · exact ⟨by decide, by decide, by decide, by decide +kernel, fun _ => rfl⟩
  · refine ⟨List.Pairwise.nil, fun q hq => absurd hq List.not_mem_nil, fun q hq => absurd hq List.not_mem_nil, fun _ h => ?_⟩
    cases h

end Sys2Proof.Tests
end

/-! SUPPORT. Proofs about Chapter 1: the inverse lookup of the level table and the move of a duck. -/

namespace Sys2Proof.Machine

open Sys2Proof

/-! ### The inverse lookup (R2)

The level table rises strictly, so the entries `takeWhile` keeps in `inv` are all those not above the value, and `lin` and `inv`
form a Galois connection: `lin c ≤ v` exactly when `c ≤ inv v`. The parts of the statement are read off from that. -/

theorem lt_length_takeWhile_le_iff (l : List Nat) (hl : l.Pairwise (· < ·)) (v i : Nat) (hi : i < l.length) :
    i < (l.takeWhile (· ≤ v)).length ↔ l[i] ≤ v := by
  induction l generalizing i with
  | nil => exact absurd hi (Nat.not_lt_zero i)
  | cons a l ih =>
    obtain ⟨ha, hl⟩ := List.pairwise_cons.mp hl
    by_cases hav : a ≤ v
    · cases i with
      | zero => simp [hav]
      | succ i => simpa [hav] using ih hl i (by simpa using hi)
    · have above : ∀ x ∈ a :: l, v < x := by
        intro x hx
        obtain rfl | hx := List.mem_cons.mp hx
        · omega
        · have := ha x hx; omega
      have := above _ (List.getElem_mem hi)
      simp only [List.takeWhile_cons, hav, decide_false, Bool.false_eq_true, if_false, List.length_nil]
      omega

theorem levelTable_length : levelTable.length = 1001 := by decide +kernel

theorem levelTable_pairwise : levelTable.Pairwise (· < ·) :=
  List.isChain_iff_pairwise.mp (by decide +kernel)

theorem lin_zero : lin 0 = 0 := by decide +kernel

theorem lin_one : lin 1 = 134 := by decide +kernel

theorem code_lt_levelTable_length (c : LevelCode) : c.val < levelTable.length :=
  c.isLt.trans_eq levelTable_length.symm

theorem lin_eq_getElem (c : LevelCode) : lin c = levelTable[c.val]'(code_lt_levelTable_length c) :=
  List.getD_eq_getElem _ _ _

theorem lin_strictMono : StrictMono lin := by
  intro c d h
  rw [lin_eq_getElem, lin_eq_getElem]
  exact List.pairwise_iff_getElem.mp levelTable_pairwise _ _ _ _ h

theorem clampCode_val (n : Nat) : (clampCode n).val = min n 1000 := by
  unfold clampCode
  split
  · exact (Nat.min_eq_left (by omega)).symm
  · exact (Nat.min_eq_right (by omega)).symm

theorem inv_val (v : Nat) : (inv v).val = ((levelTable.drop 1).takeWhile (· ≤ v)).length := by
  have : ((levelTable.drop 1).takeWhile (· ≤ v)).length ≤ (levelTable.drop 1).length :=
    (List.takeWhile_sublist _).length_le
  rw [List.length_drop, levelTable_length] at this
  rw [inv, clampCode_val, Nat.min_eq_left this]

/-- Code 0 has gain 0; any other code c stands at place c - 1 of the part of the table that `inv` searches. -/
theorem lin_inv_gc : GaloisConnection lin inv := by
  intro c v
  obtain rfl | hc := eq_or_ne c 0
  · simp [lin_zero]
  · have hpos : 1 ≤ c.val := Nat.one_le_iff_ne_zero.mpr (Fin.val_ne_zero_iff.mpr hc)
    have hlt : c.val - 1 < (levelTable.drop 1).length := by
      rw [List.length_drop, levelTable_length]; omega
    have hlin : lin c = (levelTable.drop 1)[c.val - 1] := by
      simp only [lin_eq_getElem, List.getElem_drop, Nat.add_sub_cancel' hpos]
    rw [hlin, ← lt_length_takeWhile_le_iff _ (levelTable_pairwise.drop) v _ hlt, ← inv_val, Fin.le_def]
    omega

theorem inv_lin (c : LevelCode) : inv (lin c) = c :=
  lin_strictMono.injective (lin_inv_gc.l_u_l_eq_l c)

theorem inv_eq_zero_of_lt {v : Nat} (hv : v < 134) : inv v = 0 := by
  have : inv v < 1 := lin_inv_gc.lt_iff_lt.mp (by rwa [lin_one])
  exact Fin.lt_one_iff _ |>.mp this

theorem inv_eq_last_of_le {v : Nat} (hv : lin 1000 ≤ v) : inv v = 1000 :=
  le_antisymm (Fin.le_last _) (lin_inv_gc.le_u hv)

/-- Settles O16, from the Galois connection of `lin` and `inv`; the two values are the examples R2 works out. -/
theorem inverseLookup : Obligations.InverseLookup :=
  ⟨inv_lin, lin_inv_gc.l_u_le, fun _ => inv_eq_zero_of_lt, fun _ _ => lin_inv_gc.le_u, fun _ => inv_eq_last_of_le
    , by decide +kernel, by decide +kernel⟩

/-! ### The duck move (R20) -/

theorem duckStep_eq (depth time : Nat) :
    duckStep depth time = max 1 ((if depth ≤ 4194304 then 4194304 - depth else depth - 4194304) / time) := by
  have : ((4194304 : Nat) - depth : Int).natAbs = if depth ≤ 4194304 then 4194304 - depth else depth - 4194304 := by
    split <;> omega
  rw [duckStep, Config.unity, this]

theorem duckStep_pos (depth time : Nat) : 0 < duckStep depth time := Nat.le_max_left ..

theorem duckStep_zero_one : duckStep 0 1 = 4194304 := rfl

theorem duckMove_attack {e target : Nat} (h : target < e) (depth attack release : Nat) :
    duckMove e target depth attack release = e - min (duckStep depth attack) (e - target) := if_pos h

theorem duckMove_release {e target : Nat} (h : e ≤ target) (depth attack release : Nat) :
    duckMove e target depth attack release = e + min (duckStep depth release) (target - e) := if_neg h.not_gt

theorem duckMove_attack_bounds {e target : Nat} (h : target < e) (depth attack release : Nat) :
    target ≤ duckMove e target depth attack release ∧ duckMove e target depth attack release < e := by
  have := duckStep_pos depth attack
  rw [duckMove_attack h]
  omega

theorem duckMove_release_bounds {e target : Nat} (h : e < target) (depth attack release : Nat) :
    e < duckMove e target depth attack release ∧ duckMove e target depth attack release ≤ target := by
  have := duckStep_pos depth release
  rw [duckMove_release h.le]
  omega

theorem duckMove_self (e depth attack release : Nat) : duckMove e e depth attack release = e := by
  simp [duckMove_release le_rfl]

/-- An attack of 1 frame to a depth of gain 0 takes any end value up to unity to 0 in one move. -/
theorem duckMove_zero_of_le_unity {e : Nat} (he : e ≤ 4194304) (release : Nat) : duckMove e 0 0 1 release = 0 := by
  obtain rfl | hpos := Nat.eq_zero_or_pos e
  · exact duckMove_self 0 0 1 release
  · rw [duckMove_attack hpos, duckStep_zero_one]
    omega

/-- Settles O14, by the direction of the move: attack, release, and rest on the target. -/
theorem duckStepLands : Obligations.DuckStepLands := by
  intro e target depth attack release _ _
  simp only [← duckStep_eq]
  refine ⟨fun h => ⟨duckMove_attack h .., duckMove_attack_bounds h ..⟩,
    fun h => ⟨duckMove_release h.le .., duckMove_release_bounds h ..⟩, ?_, ?_⟩
  · rintro rfl
    exact duckMove_self ..
  · rintro rfl rfl rfl he
    exact duckMove_zero_of_le_unity he release

end Sys2Proof.Machine

/-! SUPPORT. The laws of the manual as one relation between states: an operation `Keeps` them when each law that holds before it
holds after it. One lemma for each operation, in the order of the definitions; the invariants of every step are read off from
`step_keeps`. -/

namespace Sys2Proof.Machine

open Sys2Proof

/-! ### The relation -/

/-- Every law that holds of `s` holds of `t`, and the queue of commands is as it was. -/
structure Keeps (s t : State) : Prop where
  fades : s.lawL3 → t.lawL3
  clips : s.lawL5 → t.lawL5
  calls : s.lawL7 → t.lawL7
  list : s.lawL11 → t.lawL11
  stores : s.storesBounded → t.storesBounded
  places : s.placesLawful → t.placesLawful
  queue : t.pending = s.pending

/-- The parts of the state that the laws speak of, and the queue of commands. -/
def State.lawView (s : State) : List Fade × List Clip × (List Call × Bool) × (List Cue × Option Nat)
    × (List Reply × List EventRecord × List TableEntry × Bool) × (Nat × List Waiting × Option Completed) × List Instr :=
  (s.cue.fades, s.clip.clips, (s.relay.calls, s.cue.held), (s.cue.cues, s.cue.standby),
    (s.msg.replies, s.msg.events, s.msg.staged, s.msg.holdOpen), (s.msg.nextPlace, s.msg.resets, s.msg.completed), s.pending)

namespace Keeps

variable {s t u : State}

theorem refl (s : State) : Keeps s s := ⟨id, id, id, id, id, id, rfl⟩

theorem trans (h : Keeps s t) (g : Keeps t u) : Keeps s u :=
  ⟨g.fades ∘ h.fades, g.clips ∘ h.clips, g.calls ∘ h.calls, g.list ∘ h.list, g.stores ∘ h.stores, g.places ∘ h.places,
    g.queue.trans h.queue⟩

/-- An operation that touches nothing the laws speak of keeps them. -/
theorem view (h : Keeps s t) (e : u.lawView = t.lawView) : Keeps s u := by
  simp only [State.lawView, Prod.mk.injEq] at e
  obtain ⟨e1, e2, ⟨e3, e4⟩, ⟨e5, e6⟩, ⟨e7, e8, e9, e10⟩, ⟨e11, e12, e13⟩, e14⟩ := e
  refine h.trans ⟨?_, ?_, ?_, ?_, ?_, ?_, e14⟩
  · simp only [State.lawL3, e1, imp_self]
  · simp only [State.lawL5, e2, imp_self]
  · simp only [State.lawL7, State.callsLawful, State.stopIsOnAir, e3, e4, imp_self]
  · simp only [State.lawL11, State.listLawful, e5, e6, imp_self]
  · simp only [State.storesBounded, e7, e8, e9, e10, imp_self]
  · simp only [State.placesLawful, State.placesFresh, e7, e11, e12, e13, imp_self]

/-- A run of operations that each keep the laws keeps them. -/
theorem foldl {α : Type} {f : State → α → State} (h : Keeps s t) (hf : ∀ v x, Keeps v (f v x)) (xs : List α) :
    Keeps s (xs.foldl f t) := by
  induction xs generalizing t with
  | nil => exact h
  | cons x xs ih => exact ih (h.trans (hf t x))

/-! ### Blocks that no law speaks of -/

theorem onLink (h : Keeps s t) (f : Link → Link) : Keeps s (t.onLink f) := h.view rfl
theorem onInputs (h : Keeps s t) (f : Vector InputRecord 64 → Vector InputRecord 64) : Keeps s (t.onInputs f) := h.view rfl
theorem onMix (h : Keeps s t) (f : Mix → Mix) : Keeps s (t.onMix f) := h.view rfl
theorem onPorts (h : Keeps s t) (f : Ports → Ports) : Keeps s (t.onPorts f) := h.view rfl
theorem onDue (h : Keeps s t) (f : List Item → List Item) : Keeps s (t.onDue f) := h.view rfl
theorem shown (h : Keeps s t) : Keeps s t.show := h.view rfl
theorem showPass (h : Keeps s t) : Keeps s t.showPass := h.view rfl
theorem onInput (h : Keeps s t) (i : Fin 64) (f : InputRecord → InputRecord) : Keeps s (t.onInput i f) := h.onInputs _
theorem onBus (h : Keeps s t) (b : Fin 32) (f : BusRecord → BusRecord) : Keeps s (t.onBus b f) := h.onMix _
theorem onTalk (h : Keeps s t) (g : Fin 4) (f : TalkGroup → TalkGroup) : Keeps s (t.onTalk g f) := h.onMix _

/-! ### The fade table -/

/-- An operation on the fade table alone. -/
theorem onFades (h : Keeps s t) (f : CueEngine → List Fade)
    (hf : t.lawL3 → (f t.cue).length ≤ Config.maxFades ∧ ((f t.cue).map Fade.target).Nodup) :
    Keeps s (t.onCue fun c => { c with fades := f c }) :=
  h.trans ⟨hf, id, id, id, id, id, rfl⟩

theorem closeItem (h : Keeps s t) (it : FollowItem) : Keeps s (t.closeItem it) := h.view rfl

theorem closeVoice (h : Keeps s t) (v : Fin 8) (n : Nat) : Keeps s (t.closeVoice v n) := by
  unfold State.closeVoice
  split
  · split
    · exact h.closeItem _
    · exact h
  · exact h

theorem dropFade (h : Keeps s t) (x : Target) : Keeps s (t.dropFade x) := by
  refine (h.onFades (fun c => c.fades.filter fun f => f.target != x) fun ⟨hl, hn⟩ => ⟨?_, ?_⟩).closeItem _
  · exact (List.length_filter_le _ _).trans hl
  · exact hn.sublist (List.filter_sublist.map _)

theorem putCode (h : Keeps s t) (x : Target) (c : LevelCode) : Keeps s (t.putCode x c) := by
  cases x <;> exact h.view rfl

/-- A record in the place of the old one of its target changes no target. -/
theorem map_target_replace (fs : List Fade) (f : Fade) :
    (fs.map fun g => if g.target = f.target then f else g).map Fade.target = fs.map Fade.target := by
  rw [List.map_map]
  refine List.map_congr_left fun g _ => ?_
  simp only [Function.comp_apply]
  split
  · next e => exact e.symm
  · rfl

theorem putFade (h : Keeps s t) (f : Fade) (hr : t.fadeRoom f.target = true) : Keeps s (t.putFade f) := by
  unfold State.putFade
  cases ho : t.fadeOf f.target with
  | some old =>
    have taken : Keeps s (t.onCue fun c => { c with fades := c.fades.map fun g => if g.target = f.target then f else g }) := by
      refine h.onFades _ fun ⟨hl, hn⟩ => ⟨?_, ?_⟩
      · rwa [List.length_map]
      · rwa [map_target_replace]
    dsimp only
    split
    · exact taken.putCode _ _
    · exact (taken.putCode _ _).closeItem _
  | none =>
    simp only [State.fadeRoom, ho, Option.isSome_none, Bool.false_or, decide_eq_true_eq] at hr
    refine (h.onFades (fun c => c.fades ++ [f]) fun ⟨hl, hn⟩ => ⟨?_, ?_⟩).putCode _ _
    · rw [List.length_append]; exact hr
    · have fresh : ∀ g ∈ t.cue.fades, g.target ≠ f.target := by simpa using List.find?_eq_none.mp ho
      rw [List.map_append, List.map_singleton, List.nodup_append]
      refine ⟨hn, List.nodup_singleton _, fun x hx y hy => ?_⟩
      obtain ⟨g, hg, rfl⟩ := List.mem_map.mp hx
      rw [List.mem_singleton.mp hy]
      exact fresh g hg

/-! ### Posts, places and answers -/

theorem msg_post_length {m : Msg} (h : m.events.length ≤ Config.maxEvents) (n : U32) (p : Post) :
    (m.post n p).events.length ≤ Config.maxEvents := by
  unfold Msg.post
  dsimp only
  split
  · split
    · next hl => rw [List.length_append]; exact hl
    · exact h
  · exact h

/-- What a post leaves alone of the message controller. -/
theorem msg_post_same (m : Msg) (n : U32) (p : Post) :
    (m.post n p).replies = m.replies ∧ (m.post n p).staged = m.staged ∧ (m.post n p).holdOpen = m.holdOpen
      ∧ (m.post n p).nextPlace = m.nextPlace ∧ (m.post n p).resets = m.resets ∧ (m.post n p).completed = m.completed := by
  unfold Msg.post
  dsimp only
  (repeat' split) <;> exact ⟨rfl, rfl, rfl, rfl, rfl, rfl⟩

/-- An operation on the message controller that touches of what the laws speak of at most the events, and these within their size. -/
theorem onMsgEvents (h : Keeps s t) (f : Msg → Msg)
    (hl : t.msg.events.length ≤ Config.maxEvents → (f t.msg).events.length ≤ Config.maxEvents)
    (hs : (f t.msg).replies = t.msg.replies ∧ (f t.msg).staged = t.msg.staged ∧ (f t.msg).holdOpen = t.msg.holdOpen
      ∧ (f t.msg).nextPlace = t.msg.nextPlace ∧ (f t.msg).resets = t.msg.resets ∧ (f t.msg).completed = t.msg.completed) :
    Keeps s (t.onMsg f) := by
  obtain ⟨h1, h2, h3, h4, h5, h6⟩ := hs
  refine h.trans ⟨id, id, id, id, ?_, ?_, rfl⟩
  · rintro ⟨a, b, c⟩
    simp only [State.storesBounded, State.onMsg_msg, h1, h2, h3]
    exact ⟨a, hl b, c⟩
  · simp only [State.placesLawful, State.placesFresh, State.onMsg_msg, h1, h4, h5, h6, imp_self]

theorem post (h : Keeps s t) (p : Post) : Keeps s (t.post p) := by
  refine h.onMsgEvents _ (fun hl => ?_) ?_
  · unfold Msg.send; split
    · exact hl
    · exact msg_post_length hl _ _
  · unfold Msg.send; split
    · exact ⟨rfl, rfl, rfl, rfl, rfl, rfl⟩
    · exact msg_post_same _ _ _

theorem postAll (h : Keeps s t) (ps : List Post) : Keeps s (t.postAll ps) := h.foldl (fun v p => (refl v).post p) ps

theorem postOnce (h : Keeps s t) (p : Post) : Keeps s (t.postOnce p) := by
  unfold State.postOnce; split
  · exact h
  · exact h.post p

/-- Posts that come late reach the message controller as posts made at once do, one after the other. -/
theorem onMsgRun {α : Type} (h : Keeps s t) (f : Msg → α → Msg) (hf : ∀ (v : State) x, Keeps v (v.onMsg fun m => f m x))
    (xs : List α) : Keeps s (t.onMsg fun m => xs.foldl f m) := by
  induction xs generalizing t with
  | nil => exact h.view rfl
  | cons x xs ih => exact ih (h.trans (hf t x))

theorem msgPost (h : Keeps s t) (n : U32) (p : Post) : Keeps s (t.onMsg fun m => m.post n p) :=
  h.onMsgEvents _ (fun hl => msg_post_length hl n p) (msg_post_same _ n p)

theorem msgDeliver (h : Keeps s t) (b : Poster) : Keeps s (t.onMsg fun m => m.deliver b) := by
  cases hf : t.msg.coming.find? (fun e => e.post.kind.poster == some b) with
  | none =>
    have : t.onMsg (fun m => m.deliver b) = t := by simp only [State.onMsg, Msg.deliver, hf]
    rw [this]; exact h
  | some e =>
    have : t.onMsg (fun m => m.deliver b)
        = (t.onMsg fun m => { m with coming := m.coming.erase e }).onMsg fun m => m.post e.stamp e.post := by
      simp only [State.onMsg, Msg.deliver, hf]
    rw [this]
    exact (h.view rfl : Keeps s (t.onMsg fun m => { m with coming := m.coming.erase e })).msgPost _ _

theorem latePosts (h : Keeps s t) : Keeps s t.latePosts := by
  have turns : Keeps s (t.onMsg fun m => t.msg.late.foldl Msg.deliver m) :=
    h.onMsgRun Msg.deliver (fun v b => (refl v).msgDeliver b) _
  have cleared : Keeps s (t.onMsg fun m => { t.msg.late.foldl Msg.deliver m with late := [], coming := [] }) := turns.view rfl
  exact cleared.onMsgRun (fun m e => m.post e.stamp e.post) (fun v e => (refl v).msgPost _ _)
    (t.msg.late.foldl Msg.deliver t.msg).coming

/-- A message takes a place: the newest of all (R176). -/
theorem takePlace (h : Keeps s t) (o : Origin) (b : U8) : Keeps s (t.takePlace o b).2 := by
  unfold State.takePlace
  split
  · split
    · next hl =>
      refine h.trans ⟨id, id, id, id, ?_, ?_, rfl⟩
      · rintro ⟨-, hrest⟩
        exact ⟨by simpa using hl, hrest⟩
      · rintro ⟨hp, hf, hr, hc⟩
        refine ⟨?_, ?_, fun w hw p hwp => Nat.lt_succ_of_lt (hr w hw p hwp),
          fun c hcc p hcp => Nat.lt_succ_of_lt (hc c hcc p hcp)⟩
        · simp only [State.onMsg_msg, List.map_append, List.map_singleton, List.pairwise_append]
          refine ⟨hp, List.pairwise_singleton _ _, fun x hx y hy => ?_⟩
          obtain ⟨r, hr', rfl⟩ := List.mem_map.mp hx
          rw [List.mem_singleton.mp hy]
          exact hf r hr'
        · intro r hr'
          simp only [State.onMsg_msg, List.mem_append, List.mem_singleton] at hr'
          obtain hr' | rfl := hr'
          · exact Nat.lt_succ_of_lt (hf r hr')
          · exact Nat.lt_succ_self _
    · exact h.post _
  · exact h

/-- A place just taken is older than the next. -/
theorem takePlace_lt {o : Origin} {b : U8} {place : Option Nat} (h : t.takePlace o b = (some place, u)) :
    ∀ p, place = some p → p < u.msg.nextPlace := by
  unfold State.takePlace at h
  (repeat' split at h) <;> simp only [Prod.mk.injEq, Option.some.injEq, reduceCtorEq, false_and] at h
  · obtain ⟨rfl, rfl⟩ := h
    intro p hp
    rw [← Option.some.inj hp]
    exact Nat.lt_succ_self _
  · obtain ⟨rfl, rfl⟩ := h
    exact fun p hp => absurd hp (by simp)

theorem answer (h : Keeps s t) (place : Option Nat) (r : Result) : Keeps s (t.answer place r) := by
  cases place with
  | none => exact h
  | some p =>
    have same : ∀ rs : List Reply, (rs.map fun q => if q.place = p then { q with body := some r.bytes, completedAt := t.boundaries }
        else q).map Reply.place = rs.map Reply.place := by
      intro rs
      rw [List.map_map]
      exact List.map_congr_left fun q _ => by simp only [Function.comp_apply]; split <;> rfl
    refine h.trans ⟨id, id, id, id, ?_, ?_, rfl⟩
    · rintro ⟨hr, hrest⟩
      exact ⟨by simpa [State.answer] using hr, hrest⟩
    · rintro ⟨hp, hf, hrest⟩
      refine ⟨?_, fun q hq => ?_, hrest⟩
      · simp only [State.answer, State.onMsg_msg, same]; exact hp
      · have hq' : q.place ∈ t.msg.replies.map Reply.place := by
          rw [← same t.msg.replies]; exact List.mem_map_of_mem hq
        obtain ⟨q', hq', e⟩ := List.mem_map.mp hq'
        rw [← e]
        exact hf q' hq'

/-! ### HELD, fades and voices -/

theorem hold (h : Keeps s t) (showStop : Bool) : Keeps s (t.hold showStop) := by
  unfold State.hold
  split
  · exact h
  · have held : Keeps s (t.onCue fun c => { c with held := true }) :=
      h.trans ⟨id, id, fun ⟨hc, _⟩ => ⟨hc, fun _ => rfl⟩, id, id, id, rfl⟩
    exact held.post _

theorem reportEnd (h : Keeps s t) (v : Fin 8) (p : Playback) (c : EndCause) : Keeps s (t.reportEnd v p c) := by
  unfold State.reportEnd
  split
  · exact h.closeVoice v _
  · exact h
  · exact h.view rfl

theorem onVoice (h : Keeps s t) (v : Fin 8) (f : Voice → Voice) : Keeps s (t.onVoice v f) := h.view rfl

theorem startVoice (h : Keeps s t) (v : Fin 8) (p : Playback) (g : LevelCode) : Keeps s (t.startVoice v p g) :=
  (h.dropFade _).onVoice v _

theorem restartVoice (h : Keeps s t) (v : Fin 8) (p : Playback) (g : LevelCode) : Keeps s (t.restartVoice v p g) := by
  unfold State.restartVoice
  dsimp only
  split
  · exact ((h.dropFade _).onVoice v _).closeVoice v _
  · exact (h.dropFade _).onVoice v _

theorem playVoice (h : Keeps s t) (v : Fin 8) (p : Playback) (g : LevelCode) : Keeps s (t.playVoice v p g) := by
  unfold State.playVoice
  split
  · exact h.startVoice v p g
  · exact h.restartVoice v p g

theorem silenceVoice (h : Keeps s t) (v : Fin 8) (g : Option LevelCode) : Keeps s (t.silenceVoice v g) := by
  unfold State.silenceVoice
  dsimp only
  split
  · exact ((h.dropFade _).onVoice v _).reportEnd v _ _
  · exact (h.dropFade _).onVoice v _

theorem fadeVoiceOut (h : Keeps s t) (v : Fin 8) (d : Nat) (o : Option Nat) (n : Nat) : Keeps s (t.fadeVoiceOut v d o n) := by
  unfold State.fadeVoiceOut
  split
  · exact h.silenceVoice v _
  · split
    · next hr => exact (h.putFade _ hr).onVoice v _
    · exact (h.post _).silenceVoice v _

theorem stopVoice (h : Keeps s t) (v : Fin 8) (d : Nat) (o : Option Nat) (n : Nat) : Keeps s (t.stopVoice v d o n) := by
  unfold State.stopVoice
  dsimp only
  split
  · exact h
  · exact h.silenceVoice v _
  · split
    · exact (h.onVoice v _).closeVoice v _
    · exact h.onVoice v _
  · exact h
  · exact h.fadeVoiceOut v d o n

theorem leaveVoice (h : Keeps s t) (v : Fin 8) : Keeps s (t.leaveVoice v) := by
  unfold State.leaveVoice
  dsimp only
  split
  · split
    · exact (h.startVoice v _ _).onVoice v _
    · exact h.startVoice v _ _
  · split
    · exact (h.dropFade _).onVoice v _
    · exact h.onVoice v _

theorem endVoice (h : Keeps s t) (v : Fin 8) (c : EndCause) : Keeps s (t.endVoice v c) := by
  unfold State.endVoice
  split
  · exact (h.leaveVoice v).reportEnd v _ c
  · exact h.leaveVoice v

theorem callStart (h : Keeps s t) (v : Fin 8) (k id : Nat) : Keeps s (t.callStart v k id) := h.startVoice v _ _

theorem callStop (h : Keeps s t) (v : Fin 8) : Keeps s (t.callStop v) := h.onVoice v _

theorem callTake (h : Keeps s t) (v : Fin 8) (k id : Nat) : Keeps s (t.callTake v k id) := by
  unfold State.callTake
  dsimp only
  split
  · exact (h.callStart v k id).reportEnd v _ _
  · exact h.callStart v k id

/-! ### Inputs, foldback and mix -/

theorem takeTransition (h : Keeps s t) (i : Fin 64) (x : Transition) : Keeps s (t.takeTransition i x) := by
  unfold State.takeTransition
  split
  · exact (h.onInput i _).post _
  · exact h

theorem takeTransitions (h : Keeps s t) : Keeps s t.takeTransitions := h.foldl (fun v i => (refl v).takeTransition i _) _

theorem selectInput (h : Keeps s t) (i c : U8) : Keeps s (selectInput i c t).2 := by
  unfold Machine.selectInput
  dsimp only
  (repeat' split) <;> exact h.view rfl

theorem applyTalks (h : Keeps s t) : Keeps s t.applyTalks := by
  have run : Keeps s (t.msg.talks.foldl (fun s x => s.onTalk x.1 fun g => { g with latch := x.2 }) t) :=
    h.foldl (fun v (x : Fin 4 × Bool) => (refl v).onTalk x.1 _) _
  exact run.view rfl

theorem talkMessage (h : Keeps s t) (g c : U8) : Keeps s (talkMessage g c t).2 := by
  unfold Machine.talkMessage
  split <;> exact h.view rfl

theorem meterInputs (h : Keeps s t) : Keeps s t.meterInputs := by
  unfold State.meterInputs
  exact (h.onInputs _).postAll _

theorem meterBuses (h : Keeps s t) : Keeps s t.meterBuses := by
  unfold State.meterBuses
  exact (h.onMix _).postAll _

theorem advance_target (held : Bool) (f : Fade) : (f.advance held).target = f.target := by
  unfold Fade.advance; split <;> rfl

theorem closeFrame (h : Keeps s t) : Keeps s t.closeFrame := by
  refine h.trans ⟨fun ⟨hl, hn⟩ => ⟨?_, ?_⟩, id, id, id, id, id, rfl⟩
  · simpa [State.closeFrame] using hl
  · have : (Fade.target ∘ Fade.advance t.cue.held) = Fade.target := funext (advance_target _)
    simpa [State.closeFrame, this] using hn

end Keeps

end Sys2Proof.Machine

namespace Sys2Proof.Machine

open Sys2Proof

/-! ### The id of a new call (R136)

`nextId` walks the ids 1 to 65,535 in a circle. It looks at as many ids as are held, so one of those it has looked at, or the one
after them, is free: they are all different. -/

theorem idAfter_pos (n : Nat) : 1 ≤ idAfter n ∧ idAfter n ≤ 65535 := by
  unfold idAfter; split <;> omega

theorem idAfter_iterate (k : Nat) {n : Nat} (h : 1 ≤ n ∧ n ≤ 65535) : idAfter^[k] n = (n - 1 + k) % 65535 + 1 := by
  induction k with
  | zero => simp only [Function.iterate_zero, id]; omega
  | succ k ih =>
    rw [Function.iterate_succ_apply', ih]
    unfold idAfter
    split <;> omega

/-- The ids that `nextId` looks at are different. -/
theorem idAfter_iterate_inj {i j n : Nat} (hi : i < 65535) (hj : j < 65535) (e : idAfter^[i + 1] n = idAfter^[j + 1] n) : i = j := by
  rw [Function.iterate_succ_apply, Function.iterate_succ_apply, idAfter_iterate _ (idAfter_pos n),
    idAfter_iterate _ (idAfter_pos n)] at e
  have := idAfter_pos n
  omega

/-- The id found is free, or all the ids looked at before it are held. -/
theorem nextId_spec (held : List Nat) (k n : Nat) :
    ∃ i ≤ k, nextId held k n = idAfter^[i + 1] n ∧ (∀ j < i, idAfter^[j + 1] n ∈ held)
      ∧ (i < k → nextId held k n ∉ held) := by
  induction k generalizing n with
  | zero => exact ⟨0, le_rfl, rfl, fun j hj => absurd hj (Nat.not_lt_zero j), fun h => absurd h (Nat.lt_irrefl 0)⟩
  | succ k ih =>
    unfold nextId
    by_cases hc : held.contains (idAfter n) = true
    · obtain ⟨i, hi, he, hb, hf⟩ := ih (idAfter n)
      rw [if_pos hc]
      refine ⟨i + 1, by omega, he, fun j hj => ?_, fun h => hf (by omega)⟩
      cases j with
      | zero => simpa using hc
      | succ j => exact hb j (by omega)
    · rw [if_neg hc]
      exact ⟨0, Nat.zero_le _, rfl, fun j hj => absurd hj (Nat.not_lt_zero j), fun _ => by simpa using hc⟩

/-- The id found is held by none, when the ids held are fewer than there are ids. -/
theorem nextId_fresh (held : List Nat) (n : Nat) (hl : held.length < 65535) : nextId held held.length n ∉ held := by
  obtain ⟨i, hi, he, hb, hf⟩ := nextId_spec held held.length n
  obtain hlt | rfl := hi.lt_or_eq
  · exact hf hlt
  · intro hmem
    let looked : Fin (held.length + 1) → Nat := fun j => idAfter^[j.val + 1] n
    have inj : Function.Injective looked := fun a b e =>
      Fin.ext (idAfter_iterate_inj (by omega) (by omega) e)
    have sub : Finset.univ.image looked ⊆ held.toFinset := by
      intro x hx
      obtain ⟨j, -, rfl⟩ := Finset.mem_image.mp hx
      rw [List.mem_toFinset]
      obtain hj | hj := (Nat.lt_succ_iff.mp j.isLt).lt_or_eq
      · exact hb j.val hj
      · simp only [looked, hj]; rwa [← he]
    have := (Finset.card_le_card sub).trans held.toFinset_card_le
    rw [Finset.card_image_of_injective _ inj, Finset.card_univ, Fintype.card_fin] at this
    omega

/-! ### The call queue -/

/-- A queue that keeps to its places holds at most 17 calls. -/
theorem calls_length {s : State} (h : s.callsLawful) : s.relay.calls.length ≤ Config.maxCalls + 1 := by
  obtain ⟨-, h1, h2⟩ := h
  have := List.length_eq_length_filter_add (l := s.relay.calls) fun c => c.priority == 3
  have e : (fun c : Call => !(c.priority == 3)) = fun c => c.priority != 3 := rfl
  rw [e] at this
  omega

/-- The id of a new call is held by no call (R136). -/
theorem newCallId_fresh {s : State} (h : s.callsLawful) : s.newCallId ∉ s.relay.calls.map Call.id := by
  have := calls_length h
  unfold State.newCallId
  rw [← List.length_map (f := Call.id)]
  refine nextId_fresh _ _ ?_
  rw [List.length_map]
  simp only [Config.maxCalls] at this
  omega

theorem stopIsOnAir_iff (s : State) :
    s.stopIsOnAir = true ↔ ∃ c ∈ s.relay.calls, c.priority = 3 ∧ c.isOnAir = true := by
  simp [State.stopIsOnAir]

/-- A call found by its id is in the queue and has the id. -/
theorem callOf_some {s : State} {id : Nat} {c : Call} (h : s.callOf id = some c) : c ∈ s.relay.calls ∧ c.id = id :=
  ⟨List.mem_of_find?_eq_some h, by simpa using List.find?_some h⟩

/-- A queue mapped call by call, ids and priorities kept, keeps to its places. -/
theorem callsLawful_map {s t : State} (g : Call → Call) (e : t.relay.calls = s.relay.calls.map g)
    (hg : s.callsLawful → ∀ c ∈ s.relay.calls, (g c).id = c.id ∧ (g c).priority = c.priority) (h : s.callsLawful) : t.callsLawful := by
  have ids : (s.relay.calls.map g).map Call.id = s.relay.calls.map Call.id := by
    rw [List.map_map]; exact List.map_congr_left fun c hc => (hg h c hc).1
  have count : ∀ p : Fin 4 → Bool, ((s.relay.calls.map g).filter fun c => p c.priority).length
      = (s.relay.calls.filter fun c => p c.priority).length := by
    intro p
    rw [List.filter_map, List.length_map]
    exact congrArg _ (List.filter_congr fun c hc => by simp [(hg h c hc).2])
  obtain ⟨h1, h2, h3⟩ := h
  refine ⟨by rwa [e, ids], ?_, ?_⟩
  · rw [e]; exact (count fun x => x != 3).trans_le h2
  · rw [e]; exact (count fun x => x == 3).trans_le h3

namespace Keeps

variable {s t u : State}

/-! ### Relay -/

/-- An operation on the call queue and its zones alone. -/
theorem onCalls (h : Keeps s t) (f : Relay → Relay) (hf : t.lawL7 → (t.onRelay f).lawL7) : Keeps s (t.onRelay f) :=
  h.trans ⟨id, id, hf, id, id, id, rfl⟩

theorem onRelay (h : Keeps s t) (f : Relay → Relay) (hf : (f t.relay).calls = t.relay.calls) : Keeps s (t.onRelay f) :=
  h.view (by simp only [State.lawView, State.onRelay_relay, hf]; rfl)

/-- A change of the calls of one id that touches neither id nor priority, and puts no show-stop call on air. -/
theorem onCall (h : Keeps s t) (id : Nat) (f : Call → Call)
    (hf : t.callsLawful → ∀ c ∈ t.relay.calls, c.id = id →
      (f c).id = c.id ∧ (f c).priority = c.priority ∧ ((f c).isOnAir = true → c.isOnAir = true ∨ c.priority ≠ 3)) :
    Keeps s (t.onCall id f) := by
  have each : t.callsLawful → ∀ c ∈ t.relay.calls, (if c.id = id then f c else c).id = c.id
      ∧ (if c.id = id then f c else c).priority = c.priority
      ∧ ((if c.id = id then f c else c).isOnAir = true → c.isOnAir = true ∨ c.priority ≠ 3) := by
    intro hl c hc
    split
    · next e => exact hf hl c hc e
    · exact ⟨rfl, rfl, .inl⟩
  refine h.onCalls _ fun ⟨hl, hh⟩ => ⟨?_, fun hs => hh ?_⟩
  · exact callsLawful_map _ rfl (fun hl c hc => ⟨(each hl c hc).1, (each hl c hc).2.1⟩) hl
  · rw [stopIsOnAir_iff] at hs ⊢
    obtain ⟨d, hd, hp, ho⟩ := hs
    obtain ⟨c, hc, rfl⟩ := List.mem_map.mp hd
    obtain ⟨-, h2, h3⟩ := each hl c hc
    rw [h2] at hp
    exact ⟨c, hc, hp, (h3 ho).resolve_right fun hne => hne hp⟩

/-- A call of the queue rewritten as a whole, its id and priority as they were. -/
theorem onCallTo (h : Keeps s t) {c d : Call} (hc : c ∈ t.relay.calls) (hid : d.id = c.id) (hp : d.priority = c.priority)
    (ho : d.isOnAir = true → c.isOnAir = true ∨ c.priority ≠ 3) : Keeps s (t.onCall c.id fun _ => d) := by
  refine h.onCall _ _ fun hl b hb e => ?_
  obtain rfl := call_of_id hl.1 hb hc e
  exact ⟨hid, hp, ho⟩

theorem freeZones (h : Keeps s t) (id : Nat) : Keeps s (t.freeZones id) := h.view rfl

theorem tailZones (h : Keeps s t) (zs : BitVec 16) (v : Fin 8) : Keeps s (t.tailZones zs v) := h.view rfl

theorem dropTails (h : Keeps s t) (v : Fin 8) : Keeps s (t.dropTails v) := h.view rfl

theorem endCall (h : Keeps s t) (c : Call) (e : CallEnd) : Keeps s (t.endCall c e) := by
  refine Keeps.post (h.onCalls _ fun ⟨⟨h1, h2, h3⟩, hh⟩ => ⟨⟨?_, ?_, ?_⟩, fun hs => hh ?_⟩) _
  · exact h1.sublist (List.filter_sublist.map _)
  · exact ((List.filter_sublist.filter _).length_le).trans h2
  · exact ((List.filter_sublist.filter _).length_le).trans h3
  · rw [stopIsOnAir_iff] at hs ⊢
    obtain ⟨d, hd, hx⟩ := hs
    exact ⟨d, (List.mem_filter.mp hd).1, hx⟩

theorem reserveZones (h : Keeps s t) (id : Nat) : Keeps s (t.reserveZones id) := by
  refine h.onCall _ _ fun _ c _ _ => ?_
  split <;> exact ⟨rfl, rfl, .inl⟩

theorem backToWaiting (h : Keeps s t) (id : Nat) : Keeps s (t.backToWaiting id) := by
  unfold State.backToWaiting
  refine reserveZones ?_ id
  exact h.onCall _ _ fun _ _ _ _ => ⟨rfl, rfl, fun ho => absurd ho (by simp [Call.isOnAir])⟩

theorem acceptCall (h : Keeps s t) (c : CallSpec) (hr : t.callRefusal c = none) : Keeps s (t.acceptCall c) := by
  refine h.onCalls _ fun ⟨hl, hh⟩ => ⟨?_, fun hs => hh ?_⟩
  · have fresh := newCallId_fresh hl
    obtain ⟨h1, h2, h3⟩ := hl
    have room : if c.priority = 3 then (t.relay.calls.filter fun d => d.priority == 3) = []
        else (t.relay.calls.filter fun d => d.priority != 3).length < Config.maxCalls := by
      unfold State.callRefusal at hr
      dsimp only at hr
      (repeat' split at hr) <;> simp_all
    refine ⟨?_, ?_, ?_⟩
    · simp only [State.onRelay_relay, List.map_append, List.map_singleton]
      rw [List.nodup_append]
      refine ⟨h1, List.nodup_singleton _, fun a ha b hb => ?_⟩
      rw [List.mem_singleton.mp hb]
      rintro rfl
      exact fresh ha
    · simp only [State.onRelay_relay, List.filter_append, List.length_append]
      by_cases hp : c.priority = 3
      · simpa [State.newCall, hp] using h2
      · rw [if_neg hp] at room
        simpa [State.newCall, hp] using room
    · simp only [State.onRelay_relay, List.filter_append, List.length_append]
      by_cases hp : c.priority = 3
      · rw [if_pos hp] at room
        simp [State.newCall, hp, room]
      · simpa [State.newCall, hp] using h3
  · rw [stopIsOnAir_iff] at hs ⊢
    obtain ⟨d, hd, hp, ho⟩ := hs
    obtain hd | hd := List.mem_append.mp hd
    · exact ⟨d, hd, hp, ho⟩
    · rw [List.mem_singleton.mp hd] at ho
      exact absurd ho (by simp [State.newCall, Call.isOnAir])

theorem placeCallMessage (h : Keeps s t) (o : Origin) (c : RawCall) : Keeps s (placeCallMessage o c t).2 := by
  unfold Machine.placeCallMessage
  dsimp only
  split
  · cases o with
    | addressed _ => exact h
    | group _ => exact h.post _
    | broadcast => exact h.post _
  · split
    · cases o with
      | addressed _ => exact h
      | group _ => exact h.post _
      | broadcast => exact h.post _
    · next hr => exact h.acceptCall _ hr

theorem endOnAir (h : Keeps s t) (c : Call) : Keeps s (t.endOnAir c) := by
  unfold State.endOnAir
  dsimp only
  split
  · exact (h.freeZones _).onCall _ _ fun _ _ _ _ => ⟨rfl, rfl, fun ho => absurd ho (by simp [Call.isOnAir])⟩
  · exact (h.freeZones _).endCall _ _

theorem takeReport (h : Keeps s t) (e : EndReport) : Keeps s (t.takeReport e) := by
  unfold State.takeReport
  split
  · split
    · exact h.endOnAir _
    · exact h
  · exact h

theorem countOnAir (h : Keeps s t) (id : Nat) : Keeps s (t.countOnAir id) := by
  unfold State.countOnAir
  split
  · next c hc =>
    obtain ⟨hm, rfl⟩ := callOf_some hc
    split
    · split
      · have counted : Keeps s (t.onCall c.id fun _ => { c with onAirCount := c.onAirCount + 1 }) :=
          h.onCallTo hm rfl rfl .inl
        dsimp only
        split
        · exact (counted.post _).endOnAir _
        · exact counted
      · exact h
    · exact h
  · exact h

theorem relayEnds (h : Keeps s t) : Keeps s t.relayEnds := by
  have ended := (h.foldl (fun v e => (refl v).takeReport e) t.relay.reports).onRelay (fun r => { r with reports := [] }) rfl
  exact ended.foldl (fun v id => (refl v).countOnAir id) _

theorem callEnd (h : Keeps s t) (id : Nat) : Keeps s (callEnd id t).2 := by
  unfold Machine.callEnd
  split
  · exact h
  · split
    · exact h
    · exact h
    · exact h.endCall _ _
    · exact h.endOnAir _

theorem callCancel (h : Keeps s t) (id : Nat) : Keeps s (callCancel id t).2 := by
  unfold Machine.callCancel
  split
  · exact h
  · dsimp only
    split
    · exact (((h.callStop _).tailZones _ _).freeZones _).endCall _ _
    · exact (h.freeZones _).endCall _ _

theorem takeRelayRequest (h : Keeps s t) (r : RelayRequest) : Keeps s (t.takeRelayRequest r) := by
  unfold State.takeRelayRequest
  dsimp only
  split
  · exact (h.callCancel _).answer _ _
  · exact (h.callEnd _).answer _ _

theorem relayRequests (h : Keeps s t) : Keeps s t.relayRequests :=
  (h.onRelay (fun r => { r with requests := [] }) rfl).foldl (fun v r => (refl v).takeRelayRequest r) _

/-- A press answers a call of the queue. -/
theorem answeredCall_mem {z : Fin 16} {c : Call} (h : t.answeredCall z = some c) : c ∈ t.relay.calls := by
  unfold State.answeredCall at h
  split at h
  · next hf => cases h; exact List.mem_of_find?_eq_some hf
  · exact List.mem_of_find?_eq_some h

theorem takePress (h : Keeps s t) (z : Fin 16) : Keeps s (t.takePress z) := by
  unfold State.takePress
  split
  · exact h
  · next c hc =>
    have answered : Keeps s (t.onCall c.id fun _ => { c with acks := put c.acks z .acked }) :=
      h.onCallTo (answeredCall_mem hc) rfl rfl .inl
    dsimp only
    split
    · exact answered.endCall _ _
    · exact answered

theorem onZone (h : Keeps s t) (z : Fin 16) (f : Zone → Zone) : Keeps s (t.onZone z f) := h.view rfl

theorem readAckLine (h : Keeps s t) (z : Fin 16) : Keeps s (t.readAckLine z) := by
  unfold State.readAckLine
  split
  · split
    · exact h
    · exact (h.onZone z _).takePress z
  · exact h.onZone z _

theorem relayPresses (h : Keeps s t) : Keeps s t.relayPresses := h.foldl (fun v z => (refl v).readAckLine z) _

theorem countAck (h : Keeps s t) (id : Nat) : Keeps s (t.countAck id) := by
  unfold State.countAck
  split
  · next c hc =>
    obtain ⟨hm, rfl⟩ := callOf_some hc
    split
    · have counted : Keeps s (t.onCall c.id fun _ => { c with ackCount := c.ackCount + 1 }) := h.onCallTo hm rfl rfl .inl
      dsimp only
      split
      · split
        · refine backToWaiting ?_ _
          exact counted.onCall _ _ fun _ _ _ _ => ⟨rfl, rfl, .inl⟩
        · exact counted.endCall _ _
      · exact counted
    · exact h
  · exact h

theorem relayAcks (h : Keeps s t) : Keeps s t.relayAcks := h.foldl (fun v id => (refl v).countAck id) _

theorem goOnAir_callsLawful (id : Nat) (speaking : Bool) (v : Option (Fin 8)) (h : t.callsLawful) :
    (t.goOnAir id speaking v).callsLawful := by
  unfold State.goOnAir
  split
  · exact h
  · refine callsLawful_map _ rfl (fun _ d _ => ?_) h
    split <;> exact ⟨rfl, rfl⟩

/-- A call on air after one has gone on air is that one or was on air before. -/
theorem goOnAir_onAir {id : Nat} {speaking : Bool} {v : Option (Fin 8)} {d : Call}
    (hd : d ∈ (t.goOnAir id speaking v).relay.calls) (ho : d.isOnAir = true) :
    (d ∈ t.relay.calls) ∨ ∃ c ∈ t.relay.calls, c.id = id ∧ d.priority = c.priority := by
  unfold State.goOnAir at hd
  split at hd
  · exact .inl hd
  · obtain ⟨c, hc, rfl⟩ := List.mem_map.mp hd
    split
    · next e => exact .inr ⟨c, hc, e, rfl⟩
    · exact .inl hc

theorem goOnAir_view (id : Nat) (speaking : Bool) (v : Option (Fin 8)) :
    (t.goOnAir id speaking v).cue = t.cue ∧ (t.goOnAir id speaking v).clip = t.clip
      ∧ (t.goOnAir id speaking v).msg = t.msg ∧ (t.goOnAir id speaking v).pending = t.pending := by
  refine ⟨?_, ?_, ?_, ((frame_iff _ _).mp (goOnAir_frame t id speaking v)).1⟩
  all_goals unfold State.goOnAir; split <;> rfl

/-- A call that is no show-stop call goes on air. -/
theorem goOnAir (h : Keeps s t) {c : Call} (hc : t.callOf c.id = some c) (hp : c.priority ≠ 3) (speaking : Bool)
    (v : Option (Fin 8)) : Keeps s (t.goOnAir c.id speaking v) := by
  obtain ⟨e1, e2, e3, e4⟩ := goOnAir_view (t := t) c.id speaking v
  refine h.trans ⟨?_, ?_, fun ⟨hl, hh⟩ => ⟨goOnAir_callsLawful _ speaking v hl, fun hs => ?_⟩, ?_, ?_, ?_, e4⟩
  · simp only [State.lawL3, e1, imp_self]
  · simp only [State.lawL5, e2, imp_self]
  · rw [e1]
    refine hh ?_
    rw [stopIsOnAir_iff] at hs ⊢
    obtain ⟨d, hd, hp3, ho⟩ := hs
    obtain hd | ⟨b, hb, hid, hbp⟩ := goOnAir_onAir hd ho
    · exact ⟨d, hd, hp3, ho⟩
    · obtain rfl := call_of_id hl.1 hb (callOf_some hc).1 hid
      exact absurd (hbp.symm.trans hp3) hp
  · simp only [State.lawL11, State.listLawful, e1, imp_self]
  · simp only [State.storesBounded, e3, imp_self]
  · simp only [State.placesLawful, State.placesFresh, e3, imp_self]

/-- A show-stop call goes on air and the show is HELD, as one (R150 steps 3 and 4). -/
theorem goOnAir_hold (h : Keeps s t) (n : Nat) (speaking : Bool) (v : Option (Fin 8)) (b : Bool) :
    Keeps s ((t.goOnAir n speaking v).hold b) := by
  obtain ⟨e1, e2, e3, e4⟩ := goOnAir_view (t := t) n speaking v
  have onAir : Keeps { t with cue := { t.cue with held := true } }
      { t.goOnAir n speaking v with cue := { (t.goOnAir n speaking v).cue with held := true } } := by
    refine ⟨?_, ?_, fun ⟨hl, _⟩ => ⟨goOnAir_callsLawful (t := t) n speaking v hl, fun _ => rfl⟩, ?_, ?_, ?_, e4⟩
    · simp only [State.lawL3, e1, imp_self]
    · simp only [State.lawL5, e2, imp_self]
    · simp only [State.lawL11, State.listLawful, e1, imp_self]
    · simp only [State.storesBounded, e3, imp_self]
    · simp only [State.placesLawful, State.placesFresh, e3, imp_self]
  have held : Keeps s { t with cue := { t.cue with held := true } } :=
    h.trans ⟨id, id, fun ⟨hc, _⟩ => ⟨hc, fun _ => rfl⟩, id, id, id, rfl⟩
  unfold State.hold
  split
  · next hh =>
    have : { t.goOnAir n speaking v with cue := { (t.goOnAir n speaking v).cue with held := true } } = t.goOnAir n speaking v := by
      rw [← hh]
    rw [this] at onAir
    exact held.trans onAir
  · exact (held.trans onAir).post _

theorem cutCall (h : Keeps s t) (n : Nat) (zs : BitVec 16) (b : Bool) (c : Call) : Keeps s (t.cutCall n zs b c) := by
  unfold State.cutCall
  split
  · exact (h.freeZones _).endCall _ _
  · dsimp only
    split
    · split
      · exact ((h.freeZones _).backToWaiting _).post _
      · exact ((((h.callStop _).tailZones _ _).freeZones _).backToWaiting _).post _
    · exact ((h.freeZones _).backToWaiting _).post _

theorem stopSpeaks (h : Keeps s t) (c : Call) (v : Option (Fin 8)) : Keeps s (t.stopSpeaks c v) := by
  unfold State.stopSpeaks
  exact ((h.foldl (fun w d => (refl w).cutCall _ _ _ d) _).goOnAir_hold _ _ _ _).post _

theorem giveVoice (h : Keeps s t) (c : Call) (v : Fin 8) (k : Nat) (b : Bool) : Keeps s (t.giveVoice c v k b) := by
  have given : Keeps s (if b then (t.callTake v k c.id).dropTails v else t.callStart v k c.id) := by
    split
    · exact (h.callTake v k c.id).dropTails v
    · exact h.callStart v k c.id
  unfold State.giveVoice
  dsimp only
  split
  · exact given.cutCall _ _ _ _
  · exact given

theorem showStop (h : Keeps s t) (c : Call) : Keeps s (t.showStop c) := by
  unfold State.showStop
  split
  · exact h.stopSpeaks c _
  · split
    · exact h.endCall c _
    · exact (h.giveVoice c _ _ _).stopSpeaks c _
    · exact (h.giveVoice c _ _ _).stopSpeaks c _

theorem relayStops (h : Keeps s t) : Keeps s t.relayStops := by
  unfold State.relayStops
  split
  · exact h.showStop _
  · exact h

theorem passCall (h : Keeps s t) (id : Nat) : Keeps s (t.passCall id) := by
  unfold State.passCall
  split
  · exact h
  · split
    · have passed : Keeps s (t.onCall id fun d => { d with passes := d.passes + 1 }) :=
        h.onCall _ _ fun _ _ _ _ => ⟨rfl, rfl, .inl⟩
      dsimp only
      split
      · exact passed.reserveZones id
      · exact passed
    · exact h

theorem considerCall (h : Keeps s t) (id : Nat) : Keeps s (t.considerCall id) := by
  unfold State.considerCall
  split
  · exact h
  · next c hc =>
    obtain ⟨-, rfl⟩ := callOf_some hc
    split
    · exact h
    · next ha =>
      have hp : c.priority ≠ 3 := by
        unfold State.admission at ha
        split at ha
        · next hw => exact hw.2.1
        · cases ha
      exact (h.goOnAir hc hp _ _).foldl (fun v i => (refl v).passCall i) _

theorem relaySchedule (h : Keeps s t) : Keeps s t.relaySchedule := h.foldl (fun v id => (refl v).considerCall id) _

theorem countWait (h : Keeps s t) (id : Nat) : Keeps s (t.countWait id) := by
  unfold State.countWait
  split
  · next c hc =>
    obtain ⟨hm, rfl⟩ := callOf_some hc
    split
    · have counted : Keeps s (t.onCall c.id fun _ => { c with waitCount := c.waitCount + 1 }) := h.onCallTo hm rfl rfl .inl
      dsimp only
      split
      · exact counted.endCall _ _
      · exact counted
    · exact h
  · exact h

theorem relayWaits (h : Keeps s t) : Keeps s t.relayWaits := h.foldl (fun v id => (refl v).countWait id) _

theorem speakCall (h : Keeps s t) (id : Nat) : Keeps s (t.speakCall id) := by
  unfold State.speakCall
  split
  · exact h
  · next c hc =>
    obtain ⟨hm, rfl⟩ := callOf_some hc
    split
    · next hs =>
      have onAir : c.isOnAir = true := by simp [Call.isOnAir, hs.1]
      have speaking : ∀ v : Option (Option (Fin 8)), Keeps s (t.onCall c.id fun d =>
          { d with state := .onAir true, voice := v.getD d.voice }) := by
        refine fun v => h.onCall _ _ fun hl b hb e => ?_
        obtain rfl := call_of_id hl.1 hb hm e
        exact ⟨rfl, rfl, fun _ => .inl onAir⟩
      split
      · exact speaking none
      · split
        · next v _ => exact (speaking (some (some v))).callStart _ _ _
        · exact ((h.freeZones _).backToWaiting _).post _
    · exact h

theorem relaySpeak (h : Keeps s t) : Keeps s t.relaySpeak := h.foldl (fun v id => (refl v).speakCall id) _

theorem relayLamps (h : Keeps s t) : Keeps s t.relayLamps := by
  unfold State.relayLamps
  refine showPass ?_
  exact h.onRelay _ rfl

theorem refuseRelayRequests (h : Keeps s t) : Keeps s t.refuseRelayRequests :=
  h.foldl (fun v (r : RelayRequest) => (refl v).answer r.place _) _

end Keeps

end Sys2Proof.Machine

namespace Sys2Proof.Machine

open Sys2Proof

/-! ### The cue list -/

theorem mem_withCue (cues : List Cue) (c d : Cue) :
    d ∈ withCue cues c ↔ d = c ∨ (d ∈ cues ∧ d.number ≠ c.number) := by
  simp only [withCue, List.mem_append, List.mem_filter, List.mem_singleton, decide_eq_true_eq]
  constructor
  · rintro ((⟨h, hl⟩ | rfl) | ⟨h, hl⟩)
    · exact .inr ⟨h, by omega⟩
    · exact .inl rfl
    · exact .inr ⟨h, by omega⟩
  · rintro (rfl | ⟨h, hn⟩)
    · exact .inl (.inr rfl)
    · obtain hl | hl := Nat.lt_or_gt_of_ne hn
      · exact .inl (.inl ⟨h, hl⟩)
      · exact .inr ⟨h, hl⟩

/-- A record placed in a rising list leaves it rising. -/
theorem withCue_pairwise {cues : List Cue} (c : Cue) (h : (cues.map Cue.number).Pairwise (· < ·)) :
    ((withCue cues c).map Cue.number).Pairwise (· < ·) := by
  rw [List.pairwise_map] at h ⊢
  simp only [withCue, List.append_assoc, List.singleton_append, List.pairwise_append, List.pairwise_cons]
  refine ⟨h.filter _, ⟨fun d hd => by simpa using (List.mem_filter.mp hd).2, h.filter _⟩, fun a ha b hb => ?_⟩
  have hac : a.number < c.number := by simpa using (List.mem_filter.mp ha).2
  obtain rfl | hb := List.mem_cons.mp hb
  · exact hac
  · have : c.number < b.number := by simpa using (List.mem_filter.mp hb).2
    omega

theorem findCue_some {cues : List Cue} {n : Nat} {c : Cue} (h : findCue cues n = some c) : c ∈ cues ∧ c.number = n :=
  ⟨List.mem_of_find?_eq_some h, by simpa using List.find?_some h⟩

theorem nextAfter_mem {cues : List Cue} {n : Nat} {c : Cue} (h : nextAfter cues n = some c) : c ∈ cues ∧ n < c.number :=
  ⟨List.mem_of_find?_eq_some h, by simpa using List.find?_some h⟩

theorem actionTotal_sublist {a b : List Cue} (h : a.Sublist b) : actionTotal a ≤ actionTotal b :=
  (h.map _).sum_le_sum fun _ _ => Nat.zero_le _

/-- A part of a lawful list is lawful. -/
theorem listLawful_sublist {s t : State} (h : t.cue.cues.Sublist s.cue.cues) (hs : s.listLawful) : t.listLawful := by
  obtain ⟨h1, h2, h3⟩ := hs
  exact ⟨h1.sublist (h.map _), h.length_le.trans h2, (actionTotal_sublist h).trans h3⟩

/-- A part of the list holds every cue that it is not rid of. -/
theorem mem_withoutCue {cues : List Cue} {n : Nat} {c : Cue} : c ∈ withoutCue cues n ↔ c ∈ cues ∧ c.number ≠ n := by
  simp [withoutCue]

/-! ### The staged store -/

theorem sameKey_refl (e : TableEntry) : e.sameKey e = true := by cases e <;> simp [TableEntry.sameKey]

theorem sameKey_symm (e d : TableEntry) : e.sameKey d = d.sameKey e := by
  cases e <;> cases d <;> simp only [TableEntry.sameKey, Bool.beq_comm]

/-- Entries of one key have the same keys in common with any other. -/
theorem sameKey_congr {e d : TableEntry} (h : e.sameKey d = true) (x : TableEntry) : e.sameKey x = d.sameKey x := by
  cases e <;> cases d <;> simp only [TableEntry.sameKey, Bool.and_eq_true, beq_iff_eq, Bool.false_eq_true] at h
  case crosspoint.crosspoint => obtain ⟨rfl, rfl⟩ := h; cases x <;> rfl
  all_goals subst_vars; cases x <;> rfl

theorem stage_pairwise {store : List TableEntry} (e : TableEntry) (h : store.Pairwise fun a b => a.sameKey b = false) :
    (stage store e).Pairwise fun a b => a.sameKey b = false := by
  unfold stage
  split
  · rw [List.pairwise_map]
    refine h.imp fun {a b} hab => ?_
    split
    · next ha =>
      split
      · next hb => rw [sameKey_congr ha, sameKey_symm, hb] at hab; cases hab
      · rwa [← sameKey_congr ha]
    · next ha =>
      split
      · next hb => rwa [sameKey_symm, ← sameKey_congr hb, sameKey_symm]
      · exact hab
  · next hn =>
    rw [List.pairwise_append]
    refine ⟨h, List.pairwise_singleton _ _, fun a ha b hb => ?_⟩
    rw [List.mem_singleton.mp hb]
    simp only [List.any_eq_true, not_exists, not_and, Bool.not_eq_true] at hn
    exact hn a ha

/-- A key that is in the store is in it after an entry has been staged. -/
theorem any_stage (store : List TableEntry) (e x : TableEntry) (h : (store.any fun y => y.sameKey x) = true) :
    ((stage store e).any fun y => y.sameKey x) = true := by
  obtain ⟨y, hy, hk⟩ := List.any_eq_true.mp h
  unfold stage
  split
  · rw [List.any_map, List.any_eq_true]
    refine ⟨y, hy, ?_⟩
    simp only [Function.comp_apply]
    split
    · next he => rw [← sameKey_congr he]; exact hk
    · exact hk
  · rw [List.any_append, h, Bool.true_or]

theorem placesNeeded_stage (store : List TableEntry) (e : TableEntry) (es : List TableEntry) :
    placesNeeded (stage store e) es ≤ placesNeeded store es := by
  refine List.Sublist.length_le (List.monotone_filter_right es fun x hx => ?_)
  simp only [Bool.not_eq_true'] at hx ⊢
  by_contra hc
  exact absurd (any_stage store e x (by simpa using hc)) (by simp [hx])

/-- The staged store grows by the places that a write needs at most (R182). -/
theorem foldl_stage_length (es store : List TableEntry) :
    (es.foldl stage store).length ≤ store.length + placesNeeded store es := by
  induction es generalizing store with
  | nil => exact Nat.le_add_right _ _
  | cons e es ih =>
    have hs := placesNeeded_stage store e es
    have step : (stage store e).length + placesNeeded store es ≤ store.length + placesNeeded store (e :: es) := by
      unfold stage placesNeeded
      split
      · next h => simp [h]
      · next h => simp [h]; omega
    exact (ih _).trans (by omega)

theorem foldl_stage_pairwise (es : List TableEntry) {store : List TableEntry} (h : store.Pairwise fun a b => a.sameKey b = false) :
    (es.foldl stage store).Pairwise fun a b => a.sameKey b = false := by
  induction es generalizing store with
  | nil => exact h
  | cons e es ih => exact ih (stage_pairwise e h)

namespace Keeps

variable {s t u : State}

/-! ### Cue engine -/

/-- An operation on the cue list and its standby alone. -/
theorem onList (h : Keeps s t) (cues : List Cue) (standby : Option Nat)
    (hf : t.lawL11 → (t.onCue fun c => { c with cues := cues, standby := standby }).lawL11) :
    Keeps s (t.onCue fun c => { c with cues := cues, standby := standby }) :=
  h.trans ⟨fun x => x, fun x => x, fun x => x, hf, fun x => x, fun x => x, rfl⟩

/-- A standby that is a cue of the list, or none. -/
theorem onStandby (h : Keeps s t) (standby : Option Nat) (hf : ∀ n, standby = some n → n ∈ t.cue.cues.map Cue.number) :
    Keeps s (t.onCue fun c => { c with standby := standby }) :=
  h.onList t.cue.cues standby fun ⟨hl, _⟩ => ⟨hl, hf⟩

theorem nextAfter_listed (n : Nat) :
    ∀ m, (nextAfter t.cue.cues n).map Cue.number = some m → m ∈ t.cue.cues.map Cue.number := by
  intro m hm
  obtain ⟨c, hc, rfl⟩ := Option.map_eq_some_iff.mp hm
  exact List.mem_map_of_mem (nextAfter_mem hc).1

theorem cueStore (h : Keeps s t) (raw : RawCue) : Keeps s (cueStore raw t).2 := by
  unfold Machine.cueStore
  split
  · exact h
  · next c _ =>
    dsimp only
    split
    · exact h
    · next hsize =>
      rw [not_or, not_lt, not_lt] at hsize
      refine h.onList _ t.cue.standby fun ⟨⟨h1, h2, h3⟩, hs⟩ => ⟨⟨withCue_pairwise c h1, hsize.1, hsize.2⟩, fun n hn => ?_⟩
      obtain ⟨d, hd, rfl⟩ := List.mem_map.mp (hs n hn)
      by_cases e : d.number = c.number
      · exact List.mem_map.mpr ⟨c, (mem_withCue _ _ _).mpr (.inl rfl), e.symm⟩
      · exact List.mem_map_of_mem ((mem_withCue _ _ _).mpr (.inr ⟨hd, e⟩))

theorem cueRemove (h : Keeps s t) (n : U32) : Keeps s (cueRemove n t).2 := by
  unfold Machine.cueRemove
  split
  · exact h
  · next c hc =>
    dsimp only
    refine h.onList _ _ fun ⟨hl, hs⟩ => ⟨listLawful_sublist List.filter_sublist hl, fun m hm => ?_⟩
    have listed : ∀ d ∈ t.cue.cues, d.number ≠ c.number → d.number ∈ (withoutCue t.cue.cues c.number).map Cue.number :=
      fun d hd hne => List.mem_map_of_mem (mem_withoutCue.mpr ⟨hd, hne⟩)
    simp only [State.onCue_cue] at hm
    split at hm
    · obtain ⟨d, hd, rfl⟩ := Option.map_eq_some_iff.mp hm
      obtain ⟨hmem, hlt⟩ := nextAfter_mem hd
      exact listed d hmem (by omega)
    · next hne =>
      obtain ⟨d, hd, rfl⟩ := List.mem_map.mp (hs m hm)
      exact listed d hd fun e => hne (by rw [hm, e])

theorem cueRead (h : Keeps s t) (n : U32) (m : U8) : Keeps s (cueRead n m t).2 := by
  unfold Machine.cueRead
  split
  · exact h
  · split <;> exact h

theorem unstopTarget (h : Keeps s t) (x : Target) : Keeps s (t.unstopTarget x) := by
  cases x
  case voiceGain v => exact h.onVoice v _
  all_goals exact h

theorem move (h : Keeps s t) (cue n : Nat) (x : Target) (c : LevelCode) (d : Nat) (sh : Shape) :
    Keeps s (t.move cue n x c d sh) := by
  unfold State.move
  split
  · exact ((h.dropFade x).unstopTarget x).putCode x c
  · split
    · next hr => exact (h.putFade _ hr).unstopTarget x
    · exact (h.post _).putCode x c

theorem perform (h : Keeps s t) {cue n : Nat} {a : Action} (hp : t.perform cue n a = .ok u) : Keeps s u := by
  cases a <;> simp only [State.perform] at hp
  case move => split at hp <;> cases hp; exact h.move _ _ _ _ _ _
  case play => (repeat' split at hp) <;> cases hp; exact h.playVoice _ _ _
  case stop => split at hp <;> cases hp; exact h.stopVoice _ _ _ _
  case route => split at hp <;> cases hp; exact h.onInput _ _
  case call => split at hp <;> cases hp; next hr => exact h.acceptCall _ hr

theorem performAll (h : Keeps s t) (cue n k : Nat) (as : List Action) : Keeps s (State.performAll cue n k as t).1 := by
  induction as generalizing k t with
  | nil => exact h
  | cons a as ih =>
    unfold State.performAll
    split
    · next hp => exact ih (h.perform hp) _
    · exact ih (h.post _) _

theorem fire (h : Keeps s t) (c : Cue) (a : Arrival) : Keeps s (t.fire c a) := by
  have cleared : Keeps s (t.onCue fun e => { e with follow := none, firings := t.cue.firings + 1 }) := h.view rfl
  have done := cleared.performAll c.number (t.cue.firings + 1) 1 c.actions
  unfold State.fire
  refine post ?_ _
  exact (done.onStandby _ (nextAfter_listed c.number)).view rfl

theorem refuseGo (h : Keeps s t) (a : Arrival) (r : GoReason) : Keeps s (t.refuseGo a r) := by
  unfold State.refuseGo
  split
  · exact h
  · exact h.post _

theorem guardedFire (h : Keeps s t) (a : Arrival) (c : Cue) : Keeps s (t.guardedFire a c).2 := by
  unfold State.guardedFire
  split
  · exact h.refuseGo _ _
  · exact h.fire c a

theorem takeGo (h : Keeps s t) (a : Arrival) (n : Option Nat) : Keeps s (t.takeGo a n).2 := by
  unfold State.takeGo
  split
  · exact h.refuseGo _ _
  · split
    · exact h.refuseGo _ _
    · split
      · split
        · exact h.post _
        · exact h.guardedFire _ _
      · split
        · exact h.refuseGo _ _
        · exact h.guardedFire _ _

theorem takeGoLine (h : Keeps s t) : Keeps s t.takeGoLine := by
  unfold State.takeGoLine
  split
  · exact (h.onPorts _).takeGo _ _
  · exact h

theorem takeStandby (h : Keeps s t) (n : U32) : Keeps s (takeStandby n t).2 := by
  unfold Machine.takeStandby
  split
  · exact h
  · split
    · exact h
    · next c hc =>
      refine h.onStandby _ fun m hm => ?_
      rw [← Option.some.inj hm]
      exact List.mem_map_of_mem (findCue_some hc).1

theorem takeResume (h : Keeps s t) : Keeps s (takeResume t).2 := by
  unfold Machine.takeResume
  split
  · exact h
  · next hs =>
    split
    · have free : Keeps s (t.onCue fun e => { e with held := false }) :=
        h.trans ⟨fun x => x, fun x => x, fun ⟨hc, _⟩ => ⟨hc, fun ho => absurd ho hs⟩, fun x => x, fun x => x, fun x => x, rfl⟩
      refine post ?_ _
      exact free.view rfl
    · exact h

theorem expireFollow (h : Keeps s t) : Keeps s t.expireFollow := by
  have cleared : Keeps s (t.onCue fun e => { e with follow := none }) := h.view rfl
  unfold State.expireFollow
  dsimp only
  split
  · exact cleared.fire _ _
  · exact cleared.post _

theorem stepFollow (h : Keeps s t) : Keeps s t.stepFollow := by
  unfold State.stepFollow
  split
  · split
    · split
      · exact h.expireFollow
      · exact h.view rfl
    · exact h
  · exact h

theorem startTiming (h : Keeps s t) : Keeps s t.startTiming := by
  unfold State.startTiming
  split
  · split
    · exact h.view rfl
    · exact h
  · exact h

theorem completeFade (h : Keeps s t) (f : Fade) : Keeps s (t.completeFade f) := by
  have rested : Keeps s ((t.dropFade f.target).putCode f.target f.endCode) := (h.dropFade _).putCode _ _
  unfold State.completeFade
  dsimp only
  split
  · split
    · exact rested.endVoice _ _
    · exact rested
  · exact rested

theorem completeTarget (h : Keeps s t) (x : Target) : Keeps s (t.completeTarget x) := by
  unfold State.completeTarget
  split
  · split
    · exact h.completeFade _
    · exact h
  · exact h

theorem completeStops (h : Keeps s t) : Keeps s t.completeStops := h.foldl (fun w v => (refl w).completeTarget (.voiceGain v)) _

theorem completeFades (h : Keeps s t) : Keeps s t.completeFades := h.foldl (fun w x => (refl w).completeTarget x) _

/-! ### Clip player -/

/-- An operation on the clip records and the capture alone. -/
theorem onClips (h : Keeps s t) (f : ClipPlayer → ClipPlayer)
    (hf : (t.clip.clips.map Clip.length).sum ≤ Config.clipMemory → ((f t.clip).clips.map Clip.length).sum ≤ Config.clipMemory) :
    Keeps s (t.onClip f) :=
  h.trans ⟨id, hf, id, id, id, id, rfl⟩

theorem clips_filter_le (clips : List Clip) (p : Clip → Bool) :
    ((clips.filter p).map Clip.length).sum ≤ (clips.map Clip.length).sum :=
  (List.filter_sublist.map _).sum_le_sum fun _ _ => Nat.zero_le _

/-- Changes of the clip records that touch no length. -/
theorem clips_map_length (clips : List Clip) (f : Clip → Clip) (hf : ∀ d, (f d).length = d.length) :
    ((clips.map f).map Clip.length).sum = (clips.map Clip.length).sum := by
  rw [List.map_map]
  exact congrArg List.sum (List.map_congr_left fun d _ => hf d)

theorem startCapture (h : Keeps s t) (c : U8) (r : RawSource) (n : U32) : Keeps s (startCapture c r n t).2 := by
  unfold Machine.startCapture
  split
  · dsimp only
    split
    · exact h
    · split
      · exact h
      · split
        · exact h
        · next hroom =>
          dsimp only
          refine h.onClips _ fun hl => ?_
          simp only [State.freeMemory, not_lt, clampTo, Config.minClip] at hroom
          simp only [List.map_append, List.map_cons, List.map_nil, List.sum_append, List.sum_cons, List.sum_nil, clampTo,
            Config.minClip]
          omega
  · exact h

theorem abortCapture (h : Keeps s t) (c : Capture) (r : AbortReason) : Keeps s (t.abortCapture c r) :=
  (h.onClips _ fun hl => (clips_filter_le _ _).trans hl).post _

theorem abortCaptureMessage (h : Keeps s t) (c : U8) : Keeps s (abortCaptureMessage c t).2 := by
  unfold Machine.abortCaptureMessage
  split
  · exact h
  · split
    · split
      · exact h.abortCapture _ _
      · exact h
    · exact h

theorem removeClip (h : Keeps s t) (c : U8) : Keeps s (removeClip c t).2 := by
  unfold Machine.removeClip
  split
  · exact h
  · split
    · exact h
    · split
      · exact h
      · dsimp only
        refine h.onClips _ fun hl => ?_
        exact (clips_filter_le _ _).trans hl

theorem completeCapture (h : Keeps s t) (c : Capture) : Keeps s (t.completeCapture c) := by
  refine (h.onClips _ fun hl => ?_).post _
  exact (clips_map_length _ _ fun d => by split <;> rfl).trans_le hl

theorem storeFrame (h : Keeps s t) (c : Capture) : Keeps s (t.storeFrame c) := by
  unfold State.storeFrame
  refine h.onClips _ fun hl => ?_
  exact (clips_map_length _ _ fun d => by split <;> rfl).trans_le hl

theorem stepCapture (h : Keeps s t) : Keeps s t.stepCapture := by
  unfold State.stepCapture
  split
  · exact h
  · split
    · exact h.completeCapture _
    · split
      · exact h.storeFrame _
      · exact h.abortCapture _ _

theorem lossToCapture (h : Keeps s t) : Keeps s t.lossToCapture := by
  unfold State.lossToCapture
  split
  · split
    · exact h.abortCapture _ _
    · exact h
  · exact h

theorem voicePlay (h : Keeps s t) (v c : U8) (g : U16) (l : U8) : Keeps s (voicePlay v c g l t).2 := by
  unfold Machine.voicePlay
  split
  · split
    · exact h
    · split
      · exact h
      · split
        · exact h
        · exact h.playVoice _ _ _
  · exact h

theorem voiceStop (h : Keeps s t) (v : U8) (d : U32) : Keeps s (voiceStop v d t).2 := by
  unfold Machine.voiceStop
  split
  · split
    · exact h.stopVoice _ _ _ _
    · exact h
  · exact h

theorem endIfOver (h : Keeps s t) (v : Fin 8) : Keeps s (t.endIfOver v) := by
  unfold State.endIfOver
  dsimp only
  split
  · exact h.endVoice v _
  · exact h

theorem endPlaybacks (h : Keeps s t) : Keeps s t.endPlaybacks := h.foldl (fun w v => (refl w).endIfOver v) _

theorem takeReserve (h : Keeps s t) : Keeps s t.takeReserve := by
  unfold State.takeReserve
  split
  · exact h.view rfl
  · exact h

theorem pauseVoices (h : Keeps s t) : Keeps s t.pauseVoices := by
  unfold State.pauseVoices
  split
  · exact h.view rfl
  · exact h

theorem resetVoices (h : Keeps s t) : Keeps s t.resetVoices := by
  unfold State.resetVoices
  refine takeReserve ?_
  exact h.view rfl

/-! ### Tables and the hold -/

/-- An operation on the staged store and the hold alone. -/
theorem onHold (h : Keeps s t) (f : Msg → Msg)
    (hf : t.msg.staged.length ≤ Config.maxStaged ∧ t.msg.staged.Pairwise (fun a b => a.sameKey b = false)
        ∧ (t.msg.holdOpen = false → t.msg.staged = []) →
      (f t.msg).staged.length ≤ Config.maxStaged ∧ (f t.msg).staged.Pairwise (fun a b => a.sameKey b = false)
        ∧ ((f t.msg).holdOpen = false → (f t.msg).staged = []))
    (hs : (f t.msg).replies = t.msg.replies ∧ (f t.msg).events = t.msg.events ∧ (f t.msg).nextPlace = t.msg.nextPlace
      ∧ (f t.msg).resets = t.msg.resets ∧ (f t.msg).completed = t.msg.completed) : Keeps s (t.onMsg f) := by
  obtain ⟨h1, h2, h3, h4, h5⟩ := hs
  refine h.trans ⟨id, id, id, id, ?_, ?_, rfl⟩
  · rintro ⟨a, b, c⟩
    obtain ⟨c1, c2, c3⟩ := hf c
    exact ⟨by simpa [h1] using a, by simpa [h2] using b, c1, c2, c3⟩
  · simp only [State.placesLawful, State.placesFresh, State.onMsg_msg, h1, h3, h4, h5, imp_self]

/-- A hold that closes, or opens afresh, has an empty store. -/
theorem onHoldEmpty (h : Keeps s t) (f : Msg → Msg) (he : (f t.msg).staged = [])
    (hs : (f t.msg).replies = t.msg.replies ∧ (f t.msg).events = t.msg.events ∧ (f t.msg).nextPlace = t.msg.nextPlace
      ∧ (f t.msg).resets = t.msg.resets ∧ (f t.msg).completed = t.msg.completed) : Keeps s (t.onMsg f) :=
  h.onHold f (fun _ => by simp [he]) hs

theorem acceptEntries (h : Keeps s t) (taken : List TableEntry) (priors : List (List U8)) :
    Keeps s (acceptEntries taken priors t).2 := by
  unfold Machine.acceptEntries
  dsimp only
  split
  · exact h
  · split
    · next hopen =>
      split
      · exact h
      · next hroom =>
        dsimp only
        refine h.onHold _ (fun ⟨_, hp, _⟩ => ⟨?_, foldl_stage_pairwise _ hp, fun hc => ?_⟩) ?_
        · exact (foldl_stage_length _ _).trans (not_lt.mp hroom)
        · exact absurd (hopen.symm.trans hc) (by simp)
        · exact ⟨rfl, rfl, rfl, rfl, rfl⟩
    · exact h.view rfl

theorem writeTable (h : Keeps s t) {α : Type} (n : Nat) (first : U8) (es : List α) (check : Fin n → α → Option TableEntry)
    (prior : State → Fin n → List U8) : Keeps s (writeTable n first es check prior t).2 := by
  unfold Machine.writeTable
  split
  · exact h
  · dsimp only
    split
    · exact h
    · exact h.acceptEntries _ _

theorem writeCrosspoint (h : Keeps s t) (w : RawWindow) (cs : List U16) : Keeps s (writeCrosspoint w cs t).2 := by
  unfold Machine.writeCrosspoint
  split
  · exact h
  · exact h.acceptEntries _ _

theorem applyEntry (h : Keeps s t) (e : TableEntry) : Keeps s (t.applyEntry e) := by
  cases e <;> simp only [State.applyEntry]
  case input => exact h.onInput _ _
  case crosspoint => exact (h.dropFade _).putCode _ _
  case bus => exact (h.dropFade _).onBus _ _
  case output => exact h.onMix _
  case zone => exact (h.dropFade _).onZone _ _
  case talk => exact h.onTalk _ _
  case voice => exact ((h.dropFade _).onVoice _ _).putCode _ _
  case node => exact h.view rfl

theorem applyAccepted (h : Keeps s t) (a : Accepted) : Keeps s (t.applyAccepted a) := by
  cases a <;> simp only [State.applyAccepted]
  case write => exact h.applyEntry _
  case select => exact h.onInput _ _

theorem applyThose (h : Keeps s t) (sort : Accepted → Bool) : Keeps s (t.applyThose sort) :=
  (h.foldl (fun v a => (refl v).applyAccepted a) (t.msg.accepted.filter sort)).view rfl

theorem clearMeters (h : Keeps s t) (a n : Nat) : Keeps s (t.clearMeters a n) :=
  h.view (by simp only [State.lawView, State.clearMeters])

theorem readMeter (h : Keeps s t) (a n : U8) : Keeps s (readMeter a n t).2 := by
  unfold Machine.readMeter
  split
  · exact h
  · exact h.clearMeters _ _

theorem readTable (h : Keeps s t) (x : U8) (p : ReadPlace) : Keeps s (readTable x p t).2 := by
  unfold Machine.readTable
  split
  · split
    · split <;> exact h
    · exact h
  · split
    · exact h
    · split
      · exact h.readMeter _ _
      · split
        · exact h
        · split <;> exact h

theorem holdMessage (h : Keeps s t) (mode : U8) : Keeps s (holdMessage mode t).2 := by
  unfold Machine.holdMessage
  split
  · unfold holdOn
    split
    · exact h
    · dsimp only
      refine h.onHoldEmpty _ ?_ ?_
      · rfl
      · exact ⟨rfl, rfl, rfl, rfl, rfl⟩
  · split
    · unfold holdApply
      split
      · dsimp only
        refine h.onHoldEmpty _ ?_ ?_
        · rfl
        · exact ⟨rfl, rfl, rfl, rfl, rfl⟩
      · exact h
    · split
      · unfold holdDiscard
        split
        · dsimp only
          refine h.onHoldEmpty _ ?_ ?_
          · rfl
          · exact ⟨rfl, rfl, rfl, rfl, rfl⟩
        · exact h
      · exact h

theorem ageHold (h : Keeps s t) : Keeps s t.ageHold := by
  unfold State.ageHold
  split
  · split
    · refine (h.onHoldEmpty _ ?_ ?_).post _
      · rfl
      · exact ⟨rfl, rfl, rfl, rfl, rfl⟩
    · exact h.view rfl
  · exact h

end Keeps

end Sys2Proof.Machine

namespace Sys2Proof.Machine

open Sys2Proof

/-! ### What a show reset leaves of the cue engine and of the clips -/

@[simp] theorem refuseRelayRequests_cue (s : State) : s.refuseRelayRequests.cue = s.cue :=
  foldl_keeps State.cue _ (fun s (r : RelayRequest) => by unfold State.answer; split <;> rfl) _ s
@[simp] theorem refuseRelayRequests_clip (s : State) : s.refuseRelayRequests.clip = s.clip :=
  foldl_keeps State.clip _ (fun s (r : RelayRequest) => by unfold State.answer; split <;> rfl) _ s
@[simp] theorem resetCalls_cue (s : State) : s.resetCalls.cue = s.cue := by
  rw [State.resetCalls, State.onDue_cue, State.onRelay_cue, refuseRelayRequests_cue]
@[simp] theorem resetCalls_clip (s : State) : s.resetCalls.clip = s.clip := by
  rw [State.resetCalls, State.onDue_clip, State.onRelay_clip, refuseRelayRequests_clip]
@[simp] theorem resetCalls_msg (s : State) : s.resetCalls.msg = s.refuseRelayRequests.msg := by
  rw [State.resetCalls, State.onDue_msg, State.onRelay_msg]
@[simp] theorem resetCalls_calls (s : State) : s.resetCalls.relay.calls = [] := by
  rw [State.resetCalls, State.onDue_relay, State.onRelay_relay]
@[simp] theorem takeReserve_cue (s : State) : s.takeReserve.cue = s.cue := by unfold State.takeReserve; split <;> rfl
@[simp] theorem takeReserve_msg (s : State) : s.takeReserve.msg = s.msg := by unfold State.takeReserve; split <;> rfl
@[simp] theorem takeReserve_clips (s : State) : s.takeReserve.clip.clips = s.clip.clips := by
  unfold State.takeReserve; split <;> rfl
@[simp] theorem resetVoices_cue (s : State) : s.resetVoices.cue = s.cue := takeReserve_cue _
@[simp] theorem resetVoices_msg (s : State) : s.resetVoices.msg = s.msg := takeReserve_msg _
@[simp] theorem resetVoices_clips (s : State) : s.resetVoices.clip.clips = s.clip.clips := takeReserve_clips _

theorem putCode_clips (s : State) (t : Target) (c : LevelCode) : (s.putCode t c).clip.clips = s.clip.clips := by
  cases t <;> rfl

@[simp] theorem resetCues_cue (s : State) : s.resetCues.cue = { s.cue with
    fades := [], follow := none, held := false, standby := s.cue.cues.head?.map Cue.number } := by
  have : (s.cue.fades.foldl (fun s f => s.putCode f.target f.lastCode) s).cue = s.cue :=
    foldl_keeps State.cue _ (fun s (f : Fade) => putCode_cue s f.target f.lastCode) _ s
  unfold State.resetCues
  rw [State.onCue_cue, this]

@[simp] theorem resetCues_msg (s : State) : s.resetCues.msg = s.msg :=
  foldl_keeps State.msg _ (fun s (f : Fade) => putCode_msg s f.target f.lastCode) _ s

@[simp] theorem resetCues_clips (s : State) : s.resetCues.clip.clips = s.clip.clips :=
  foldl_keeps (fun s => s.clip.clips) _ (fun s (f : Fade) => putCode_clips s f.target f.lastCode) _ s

/-- The laws hold of the state after a cold reset, whose lists are all empty. -/
theorem cold_lawful (straps : BitVec 6) :
    (State.cold straps).lawL3 ∧ (State.cold straps).lawL5 ∧ (State.cold straps).lawL7 ∧ (State.cold straps).lawL11
      ∧ (State.cold straps).storesBounded ∧ (State.cold straps).placesLawful := by
  simp [State.lawL3, State.lawL5, State.lawL7, State.callsLawful, State.stopIsOnAir, State.lawL11, State.listLawful, actionTotal,
    State.storesBounded, State.placesLawful, State.placesFresh, State.cold, CueEngine.cold, ClipPlayer.cold, Relay.cold, Msg.cold]

namespace Keeps

variable {s t u : State}

/-! ### Messages -/

theorem fetchEvents (h : Keeps s t) (m : U8) : Keeps s (fetchEvents m t).2 := by
  unfold Machine.fetchEvents
  dsimp only
  refine h.onMsgEvents _ (fun hl => ?_) ?_
  · exact (List.drop_sublist _ _).length_le.trans hl
  · exact ⟨rfl, rfl, rfl, rfl, rfl, rfl⟩

theorem clearFlags (h : Keeps s t) (f : U64) : Keeps s (clearFlags f t).2 :=
  h.view (by simp only [State.lawView, Machine.clearFlags])

theorem settleNow (h : Keeps s t) (o : Origin) (r : Request) : Keeps s (settleNow o r t).2 := by
  cases r
  case writeInput => exact h.writeTable _ _ _ _ _
  case writeCrosspoint => exact h.writeCrosspoint _ _
  case writeBus => exact h.writeTable _ _ _ _ _
  case writeOutput => exact h.writeTable _ _ _ _ _
  case writeZone => exact h.writeTable _ _ _ _ _
  case writeTalk => exact h.writeTable _ _ _ _ _
  case writeVoice => exact h.writeTable _ _ _ _ _
  case writeNode => exact h.writeTable _ _ _ _ _
  case read => exact h.readTable _ _
  case readMeter => exact h.readMeter _ _
  case hold => exact h.holdMessage _
  case cueStore => exact h.cueStore _
  case cueRemove => exact h.cueRemove _
  case cueRead => exact h.cueRead _ _
  case callPlace => exact h.placeCallMessage _ _
  case talk => exact h.talkMessage _ _
  case inputSelect => exact h.selectInput _ _
  case capture => exact h.startCapture _ _ _
  case captureAbort => exact h.abortCaptureMessage _
  case clipRemove => exact h.removeClip _
  case status part first count =>
    have : (Machine.settleNow o (.status part first count) t).2 = t := readStatus_state part first count t
    rwa [this]
  case eventFetch => exact h.fetchEvents _
  case flagsClear => exact h.clearFlags _
  all_goals exact h

theorem takeRequest (h : Keeps s t) (o : Origin) (r : Request) : Keeps s (takeRequest o r t).2 := by
  cases r
  case go => exact h.takeGo _ _
  case standby => exact h.takeStandby _
  case halt => exact h.hold _
  case resume => exact h.takeResume
  case voicePlay => exact h.voicePlay _ _ _ _
  case voiceStop => exact h.voiceStop _ _
  all_goals exact h

theorem takeWaiting (h : Keeps s t) (w : Waiting) : Keeps s (t.takeWaiting w) := (h.takeRequest w.origin w.request).answer _ _

theorem takeRequests (h : Keeps s t) : Keeps s t.takeRequests :=
  (h.view rfl : Keeps s (t.onMsg fun m => { m with waiting := [] })).foldl (fun v w => (refl v).takeWaiting w) _

/-- An operation on what waits for the places of the replies: the RESETs and the completed message. -/
theorem onPlaces (h : Keeps s t) (resets : List Waiting) (completed : Option Completed)
    (hr : s.placesLawful → ∀ w ∈ resets, ∀ p, w.place = some p → p < t.msg.nextPlace)
    (hc : s.placesLawful → ∀ c, completed = some c → ∀ p, c.place = some p → p < t.msg.nextPlace) :
    Keeps s (t.onMsg fun m => { m with resets := resets, completed := completed }) :=
  ⟨h.fades, h.clips, h.calls, h.list, h.stores, fun hs => ⟨(h.places hs).1, (h.places hs).2.1, hr hs, hc hs⟩, h.queue⟩

/-- A message whose place, if it has one, has been taken is handed over to its owner. -/
theorem handOver (h : Keeps s t) (o : Origin) {place : Option Nat} (r : Request)
    (hp : s.placesLawful → ∀ p, place = some p → p < t.msg.nextPlace) : Keeps s (t.handOver o place r) := by
  unfold State.handOver
  split
  · exact (h.settleNow o r).answer _ _
  · exact h.view rfl
  · refine h.onPlaces _ t.msg.completed (fun hs w hw => ?_) fun hs => (h.places hs).2.2.2
    obtain hw | hw := List.mem_append.mp hw
    · exact (h.places hs).2.2.1 w hw
    · rw [List.mem_singleton.mp hw]; exact hp hs
  · exact h.onRelay _ rfl

theorem complete (h : Keeps s t) (o : Origin) (b : List U8) : Keeps s (t.complete o b) := by
  have taken := h.takePlace o (b.headD 0)
  unfold State.complete
  split
  · next e => rwa [e] at taken
  · next e =>
    rw [e] at taken
    refine taken.onPlaces _ _ (fun hs => (taken.places hs).2.2.1) fun _ c hc => ?_
    rw [← Option.some.inj hc]
    exact takePlace_lt e

theorem executeCompleted (h : Keeps s t) : Keeps s t.executeCompleted := by
  unfold State.executeCompleted
  split
  · exact h.shown
  · next c hc =>
    have cleared : Keeps s (t.show.onMsg fun m => { m with completed := none }) :=
      h.shown.onPlaces t.msg.resets none (fun hs => (h.places hs).2.2.1) fun _ _ hn => absurd hn (by simp)
    dsimp only
    split
    · exact cleared.answer _ _
    · split
      · exact cleared
      · exact cleared.handOver _ _ fun hs => (h.places hs).2.2.2 c hc

/-! ### Resets -/

theorem warmReset (h : Keeps s t) : Keeps s t.warmReset := by
  have meters : Keeps s t.clearMetersAndFlags := h.view (by simp only [State.lawView, State.clearMetersAndFlags])
  unfold State.warmReset
  generalize t.clearMetersAndFlags = v at meters ⊢
  refine meters.trans ⟨id, id, id, id, fun _ => ?_, fun ⟨_, _, hr, hc⟩ => ⟨?_, ?_, hr, hc⟩, rfl⟩
  · simp [State.storesBounded]
  · simp
  · simp [State.placesFresh]

/-- A warm RESET keeps its own reply alone (R187). -/
theorem takeWarmReset (h : Keeps s t) (w : Waiting)
    (hp : s.placesLawful → ∀ p, w.place = some p → p < t.msg.nextPlace) : Keeps s (t.takeWarmReset w) := by
  have reset := h.warmReset
  rw [← show t.warmReset.msg.nextPlace = t.msg.nextPlace from rfl] at hp
  unfold State.takeWarmReset State.answerReset
  generalize t.warmReset = v at reset hp ⊢
  split
  · next p _ hw =>
    refine ⟨reset.fades, reset.clips, reset.calls, reset.list, fun hs => ?_, fun hs => ?_, reset.queue⟩
    · exact ⟨Nat.le_of_ble_eq_true rfl, (reset.stores hs).2⟩
    · obtain ⟨-, -, hr, hc⟩ := reset.places hs
      refine ⟨List.pairwise_singleton _ _, fun r hr' => ?_, hr, hc⟩
      rw [List.mem_singleton.mp hr']
      exact hp hs p hw
  · exact reset

theorem takeWarmReset_nextPlace (t : State) (w : Waiting) : (t.takeWarmReset w).msg.nextPlace = t.msg.nextPlace := by
  unfold State.takeWarmReset State.answerReset
  split <;> rfl

theorem warmResets (h : Keeps s t) : Keeps s t.warmResets := by
  have run : ∀ (ws : List Waiting) (v : State), Keeps s v →
      (s.placesLawful → ∀ w ∈ ws, ∀ p, w.place = some p → p < v.msg.nextPlace) → Keeps s (ws.foldl State.takeWarmReset v) := by
    intro ws
    induction ws with
    | nil => exact fun v hv _ => hv
    | cons w ws ih =>
      intro v hv hw
      refine ih _ (hv.takeWarmReset w fun hs => hw hs w List.mem_cons_self) fun hs x hx => ?_
      rw [takeWarmReset_nextPlace]
      exact hw hs x (List.mem_cons_of_mem _ hx)
  have waiting (hs : s.placesLawful) (w : Waiting) (p : Waiting → Bool) (hw : w ∈ t.msg.resets.filter p) :=
    (h.places hs).2.2.1 w (List.mem_filter.mp hw).1
  refine run _ _ ?_ fun hs w hw => waiting hs w _ hw
  exact h.onPlaces _ t.msg.completed (fun hs w hw => waiting hs w _ hw) fun hs => (h.places hs).2.2.2

theorem showReset (h : Keeps s t) : Keeps s t.showReset := by
  have calls : Keeps t t.resetCues.resetVoices.resetCalls := by
    have refused := (refl t.resetCues.resetVoices).refuseRelayRequests
    have msg : t.resetCues.resetVoices.msg = t.msg := by simp
    refine ⟨fun _ => ?_, fun hl => ?_, fun _ => ?_, fun hl => ⟨?_, ?_⟩, fun hl => ?_, fun hl => ?_, ?_⟩
    · simp [State.lawL3]
    · simpa [State.lawL5] using hl
    · simp [State.lawL7, State.callsLawful, State.stopIsOnAir]
    · simpa [State.listLawful] using hl.1
    · intro n hn
      simp only [resetCalls_cue, resetVoices_cue, resetCues_cue] at hn ⊢
      obtain ⟨c, hc, rfl⟩ := Option.map_eq_some_iff.mp hn
      exact List.mem_map_of_mem (List.mem_of_head? hc)
    · simp only [State.storesBounded, resetCalls_msg]
      refine refused.stores ?_
      simpa only [State.storesBounded, msg] using hl
    · simp only [State.placesLawful, State.placesFresh, resetCalls_msg]
      refine refused.places ?_
      simpa only [State.placesLawful, State.placesFresh, msg] using hl
    · have frame : t.resetCues.resetVoices.frame = t.frame := by simp
      exact ((still_iff _ _).mp ((resetCalls_frame _).1.trans (still_of_frame frame))).1
  exact ((h.trans calls).showPass).post _

theorem takeShowReset (h : Keeps s t) (w : Waiting) : Keeps s (t.takeShowReset w) := h.showReset.answer _ _

theorem showResets (h : Keeps s t) : Keeps s t.showResets := by
  refine foldl ?_ (fun v w => (refl v).takeShowReset w) _
  exact h.onPlaces _ t.msg.completed (fun hs w hw => (h.places hs).2.2.1 w (List.mem_filter.mp hw).1)
    fun hs => (h.places hs).2.2.2

/-! ### The assembler, the answer cell and the link -/

/-- A change of the assembler alone. -/
theorem onAssembler (h : Keeps s t) (p : Option Partial) : Keeps s (t.onMsg fun m => { m with assembler := p }) := h.view rfl

theorem discardPartial (h : Keeps s t) (r : FragmentReason) : Keeps s (t.discardPartial r) := by
  unfold State.discardPartial
  split
  · exact (h.onAssembler none).post _
  · exact h

theorem advance (h : Keeps s t) (c : Cell) (p : Partial) : Keeps s (t.advance c p) := by
  unfold State.advance
  split
  · exact (h.onAssembler none).complete _ _
  · exact h.onAssembler _

theorem overlong (h : Keeps s t) (p : Partial) : Keeps s (t.overlong p) := by
  unfold State.overlong
  split
  · next tag _ =>
    have taken := (h.onAssembler none).takePlace (.addressed tag) (p.body.headD 0)
    split
    · next e => rw [e] at taken; exact taken.answer _ _
    · next e => rwa [e] at taken
  · exact h.discardPartial _

theorem continueMessage (h : Keeps s t) (c : Cell) (p : Partial) : Keeps s (t.continueMessage c p) := by
  unfold State.continueMessage
  split
  · exact h.discardPartial _
  · split
    · exact h.overlong _
    · exact h.advance _ _

theorem assemble (h : Keeps s t) (c : Cell) : Keeps s (t.assemble c) := by
  unfold State.assemble
  split
  · split
    · exact h.discardPartial _
    · exact h.post _
  · split
    · exact (h.discardPartial _).advance _ _
    · split
      · exact h
      · exact h.continueMessage _ _

theorem takeCell (h : Keeps s t) : Keeps s t.takeCell := by
  unfold State.takeCell
  split
  · split
    · exact h.assemble _
    · exact h
  · exact h

/-- The reply at the head of the queue. -/
theorem headReply_some {r : Reply} {body : List U8} (h : t.headReply = some (r, body)) : ∃ rs, t.msg.replies = r :: rs := by
  unfold State.headReply at h
  split at h
  · cases h
  · next q qs hq =>
    split at h
    · split at h
      · cases h; exact ⟨qs, hq⟩
      · cases h
    · cases h

theorem placeAnswer (h : Keeps s t) (offered : Bool) (c : Cell) : Keeps s (t.placeAnswer offered c).2 := by
  unfold State.placeAnswer
  split
  · next r body _ hr =>
    obtain ⟨rs, hrs⟩ := headReply_some hr
    split
    · dsimp only
      refine h.trans ⟨id, id, id, id, ?_, ?_, rfl⟩
      · rintro ⟨hl, hrest⟩
        refine ⟨?_, hrest⟩
        rw [hrs, List.length_cons] at hl
        simp only [State.onMsg_msg, hrs, List.tail_cons]
        split
        · omega
        · rwa [List.length_cons]
      · rintro ⟨hp, hf, hrest⟩
        simp only [State.placesFresh, hrs, List.map_cons, List.pairwise_cons, List.forall_mem_cons] at hp hf
        refine ⟨?_, ?_, hrest⟩
        · simp only [State.onMsg_msg, hrs, List.tail_cons]
          split
          · exact hp.2
          · exact List.pairwise_cons.mpr hp
        · intro q hq
          simp only [State.onMsg_msg, hrs, List.tail_cons] at hq ⊢
          split at hq
          · exact hf.2 q hq
          · obtain rfl | hq := List.mem_cons.mp hq
            · exact hf.1
            · exact hf.2 q hq
    · exact h
  · exact h

theorem forward (h : Keeps s t) : Keeps s t.forward := by
  unfold State.forward
  split
  · exact (h.placeAnswer _ _).onLink _
  · exact h

theorem postArrival (h : Keeps s t) : Keeps s t.postArrival := by
  have restored : Keeps s (if t.link.restoring then t.post (linkRestoredPost t.link.upstream (decide (t.link.locks ≤ 1))) else t) := by
    split
    · exact h.post _
    · exact h
  unfold State.postArrival
  dsimp only
  split
  · exact restored.postOnce _
  · exact restored

/-! ### The items of a boundary -/

theorem runOnce (h : Keeps s t) (it : Item) {work : State → State} (hw : ∀ v, Keeps v (work v)) : Keeps s (t.runOnce it work) := by
  unfold State.runOnce
  split
  · exact (h.onDue _).trans (hw _)
  · exact h

theorem takeMeters (h : Keeps s t) : Keeps s t.takeMeters := by
  have held : Keeps s (t.onMsg fun m => { m with late := m.frameLate, frameLate := [] }) := h.view rfl
  exact ((held.runOnce .inputMeters fun v => (refl v).meterInputs).runOnce .busMeters fun v => (refl v).meterBuses).latePosts

theorem takeLevels (h : Keeps s t) : Keeps s t.takeLevels := h.onPorts _
theorem driveOutputs (h : Keeps s t) : Keeps s t.driveOutputs := h.onPorts _
theorem countInputs (h : Keeps s t) : Keeps s t.countInputs := h.onInputs _
theorem carryInputs (h : Keeps s t) : Keeps s t.carryInputs := h.onInputs _
theorem formKeys (h : Keeps s t) : Keeps s t.formKeys := h.onMix _
theorem setGates (h : Keeps s t) : Keeps s t.setGates := h.onInputs _
theorem moveBuses (h : Keeps s t) : Keeps s t.moveBuses := h.onMix _
theorem relayDucks (h : Keeps s t) : Keeps s t.relayDucks := by
  unfold State.relayDucks
  refine h.onRelay _ ?_
  rfl

theorem runItem (h : Keeps s t) (it : Item) : Keeps s (runItem it t) := by
  cases it
  case levels => exact h.takeLevels
  case ends => exact h.endPlaybacks
  case node => exact h.applyThose _
  case linkEvents => exact h.postArrival
  case lossEvent => exact h.post _
  case stopFades => exact h.completeStops
  case reserve => exact h.takeReserve
  case completions => exact h.completeFades
  case writes => exact h.applyThose _
  case voiceWrites => exact h.applyThose _
  case talks => exact h.applyTalks
  case warmReset => exact h.warmResets
  case showReset => exact h.showResets
  case requests => exact h.takeRequests
  case goLine => exact h.takeGoLine
  case follow => exact h.stepFollow
  case capture => exact h.stepCapture
  case lossCapture => exact h.lossToCapture
  case lossPartial => exact h.discardPartial _
  case hold => exact h.ageHold
  case relayEnds => exact h.relayEnds
  case relayRequests => exact h.relayRequests
  case relayPresses => exact h.relayPresses
  case relayAcks => exact h.relayAcks
  case relayStops => exact h.relayStops
  case relaySchedule => exact h.relaySchedule
  case relayWaits => exact h.relayWaits
  case relayDucks => exact h.relayDucks
  case relaySpeak => exact h.relaySpeak
  case relayLamps => exact h.relayLamps
  case count => exact h.countInputs
  case transitions => exact h.takeTransitions
  case carry => exact h.carryInputs
  case followTiming => exact h.startTiming
  case keys => exact h.formKeys.setGates.moveBuses
  case transport => exact h.pauseVoices
  case outputs => exact h.driveOutputs
  case cell => exact h.takeCell
  case forward => exact h.forward
  case latePosts => exact h.latePosts
  case execute => exact h.executeCompleted
  case meters => exact h.takeMeters
  case inputMeters => exact h.meterInputs
  case busMeters => exact h.meterBuses

theorem runDue (h : Keeps s t) (it : Item) : Keeps s (t.runDue it) := h.runOnce it fun v => (refl v).runItem it

theorem runAll (h : Keeps s t) (its : List Item) : Keeps s (its.foldl State.runDue t) := h.foldl (fun v it => (refl v).runDue it) _

theorem ready (h : Keeps s t) (it : Item) : Keeps s (t.ready it) := h.runAll _

theorem settle (h : Keeps s t) : Keeps s t.settle := h.runAll _

theorem takeItem (h : Keeps s t) (it : Item) : Keeps s (t.takeItem it) := by
  unfold State.takeItem
  split
  · exact (h.ready it).runDue it
  · exact h

/-! ### Boundaries -/

theorem finish (h : Keeps s t) : Keeps s t.finish := by
  unfold State.finish State.endFrame
  split
  · exact (h.settle.runAll _).closeFrame
  · exact h.settle

theorem openFrame (h : Keeps s t) (env : Env) (c : Clocking) (items : List Item) : Keeps s (t.openFrame env c items) :=
  h.view (by simp [State.lawView, State.openFrame, State.openPass, State.clearLossCuts])

theorem work (h : Keeps s t) (env : Env) : Keeps s (t.work env) := by
  have taken := h.foldl (fun v it => (refl v).takeItem it) env.order
  unfold State.work
  dsimp only
  split
  · exact taken.settle
  · exact taken

/-- A boundary of any kind: the frame before it ends, the link takes its part, and the work is taken. -/
theorem boundary (h : Keeps s t) (link : Link → Link) (env : Env) (c : Clocking) (items : List Item) :
    Keeps s (((t.finish.onLink link).openFrame env c items).work env) :=
  ((h.finish.onLink link).openFrame env c items).work env

theorem acquire (h : Keeps s t) (p : Port) (good : Bool) : Keeps s (t.acquire p good) := by
  have damaged : Keeps s (t.countDamaged t.link.state) := (h.onLink _).postOnce _
  unfold State.acquire
  split
  · exact h.onLink _
  · exact h.onLink _
  · exact h.onLink _
  · exact damaged.onLink _
  · exact damaged.onLink _
  · exact damaged.onLink _
  · exact h

theorem takeFrame (h : Keeps s t) (p : Port) (f : Frame) (env : Env) : Keeps s (t.takeFrame p f env) := by
  unfold State.takeFrame
  split
  · exact (h.onLink _).postOnce _
  · split
    · exact h.onLink _
    · split
      · exact h.boundary _ _ _ _
      · exact h.acquire _ _

/-! ### Commands -/

theorem stepIn (h : Keeps s t) (it : Item) (happens : State → Bool) {effect : State → State} (he : ∀ v, Keeps v (effect v)) :
    Keeps s (t.stepIn it happens effect) := by
  unfold State.stepIn
  split
  · exact (h.ready it).trans (he _)
  · exact h

theorem messageNow (h : Keeps s t) (o : Origin) (r : Request) : Keeps s (t.messageNow o r) := by
  unfold State.messageNow
  dsimp only
  split
  · have taken := h.settle.takePlace o (requestKind r)
    split
    · next e => rwa [e] at taken
    · next e => rw [e] at taken; exact taken.handOver _ _ fun _ => takePlace_lt e
  · exact h.settle

theorem messageAt (h : Keeps s t) (it : Item) (o : Origin) (r : Request) {take : Option Nat → State → State}
    (ht : ∀ place v, (v.placesLawful → ∀ p, place = some p → p < v.msg.nextPlace) → Keeps v (take place v)) :
    Keeps s (t.messageAt it o r take) := by
  have before : Keeps s (if t.isDue it then Machine.runItem it (t.ready it) else t.settle) := by
    split
    · exact (h.ready it).runItem it
    · exact h.settle
  unfold State.messageAt
  generalize (if t.isDue it then Machine.runItem it (t.ready it) else t.settle) = v at before ⊢
  dsimp only
  split
  · have taken := before.takePlace o (requestKind r)
    split
    · next e => rwa [e] at taken
    · next e =>
      rw [e] at taken
      split
      · exact taken.trans (ht _ _ fun _ => takePlace_lt e)
      · exact taken.handOver _ _ fun _ => takePlace_lt e
  · exact before

theorem cold (straps : BitVec 6) : Keeps s { State.cold straps with pending := s.pending } := by
  obtain ⟨h3, h5, h7, h11, hs, hp⟩ := cold_lawful straps
  exact ⟨fun _ => h3, fun _ => h5, fun _ => h7, fun _ => h11, fun _ => hs, fun _ => hp, rfl⟩

theorem abortAll (h : Keeps s t) : Keeps s t.abortAll := by
  refine h.trans ⟨fun _ => ?_, fun hl => ?_, fun _ => ?_, id, fun ⟨_, he, _⟩ => ?_, fun _ => ?_, rfl⟩
  · exact ⟨Nat.zero_le _, List.nodup_nil⟩
  · exact (clips_filter_le _ _).trans hl
  · exact ⟨⟨List.nodup_nil, Nat.zero_le _, Nat.zero_le _⟩, fun h => absurd h (by simp [State.stopIsOnAir, State.abortAll])⟩
  · exact ⟨Nat.zero_le _, he, Nat.zero_le _, List.Pairwise.nil, fun _ => rfl⟩
  · exact ⟨List.Pairwise.nil, fun _ h => absurd h (by simp [State.abortAll]), fun _ h => absurd h (by simp [State.abortAll]),
      fun _ h => absurd h (by simp [State.abortAll])⟩

theorem quiet (h : Keeps s t) : Keeps s t.quiet := h.view (by simp only [State.lawView, State.quiet])

end Keeps

/-- A command of a node that is awake keeps the laws when its effect does; one that stands still takes nothing. -/
theorem awake_keeps {s : State} {effect : State → State} (h : Keeps s (effect s)) :
    ∃ t, s.awake effect = .next t ∧ Keeps s t := by
  refine ⟨_, rfl, ?_⟩
  split
  · exact .refl s
  · exact h

theorem messageNow_keeps (s : State) (o : Origin) (r : Request) :
    ∃ t, (s.awake fun s => s.messageNow o r) = .next t ∧ Keeps s t := awake_keeps ((Keeps.refl s).messageNow o r)

theorem messageAtBoundary_keeps (s : State) (o : Origin) (r : Request) :
    ∃ t, (s.awake fun s => s.messageAtBoundary o r) = .next t ∧ Keeps s t :=
  awake_keeps ((Keeps.refl s).messageAt _ o r fun _ v _ => (Keeps.refl v).takeWaiting _)

theorem messageAtPass_keeps (s : State) (o : Origin) (r : Request) (cancel : Bool) (id : U16) :
    ∃ t, (s.awake fun s => s.messageAtPass o r cancel id) = .next t ∧ Keeps s t :=
  awake_keeps ((Keeps.refl s).messageAt _ o r fun _ v _ => (Keeps.refl v).takeRelayRequest _)

theorem stepIn_keeps (s : State) (it : Item) (happens : State → Bool) {effect : State → State} (he : ∀ v, Keeps v (effect v)) :
    ∃ t, (s.awake fun s => s.stepIn it happens effect) = .next t ∧ Keeps s t :=
  awake_keeps ((Keeps.refl s).stepIn it happens he)

/-- Every command answers a next state that keeps the laws. -/
theorem exec_keeps (c : Instr) (s : State) : ∃ t, exec c s = .next t ∧ Keeps s t := by
  cases c
  case coldReset => exact ⟨_, rfl, .cold _⟩
  case frameArrival => exact awake_keeps (effect := fun s => s.takeFrame _ _ _) ((Keeps.refl s).takeFrame _ _ _)
  case localIntervalExpiry env =>
    refine awake_keeps (effect := fun s => if s.link.linkTimed then s else s.localTimedBoundary env) ?_
    split
    · exact .refl s
    · exact (Keeps.refl s).boundary _ _ _ _
  case linkLost env =>
    refine awake_keeps (effect := fun s => if s.link.state = .locked then s.linkLossBoundary env else s) ?_
    split
    · exact (Keeps.refl s).boundary _ _ _ _
    · exact .refl s
  case reacquireTimeout => exact awake_keeps (effect := fun s => s.onLink _) ((Keeps.refl s).onLink _)
  case levelTaken => exact stepIn_keeps s _ _ fun v => (Keeps.refl v).onPorts _
  case primaryLoss => exact stepIn_keeps s _ _ fun v => (Keeps.refl v).takeTransition _ _
  case spareLoss => exact stepIn_keeps s _ _ fun v => (Keeps.refl v).takeTransition _ _
  case autoReturn => exact stepIn_keeps s _ _ fun v => (Keeps.refl v).takeTransition _ _
  case restore => exact stepIn_keeps s _ _ fun v => (Keeps.refl v).takeTransition _ _
  case fadeComplete => exact stepIn_keeps s _ _ fun v => (Keeps.refl v).completeTarget _
  case followTimingStart => exact stepIn_keeps s _ _ fun v => (Keeps.refl v).startTiming
  case followExpiry => exact stepIn_keeps s _ _ fun v => (Keeps.refl v).runDue _
  case cutOutEnd => exact stepIn_keeps s _ _ fun v => (Keeps.refl v).endIfOver _
  case playbackEnd => exact stepIn_keeps s _ _ fun v => (Keeps.refl v).endIfOver _
  case callStopEnd => exact stepIn_keeps s _ _ fun v => (Keeps.refl v).endIfOver _
  case reserveChange => exact stepIn_keeps s _ _ fun v => (Keeps.refl v).runDue _
  case captureDone => exact stepIn_keeps s _ _ fun v => (Keeps.refl v).runDue _
  case onairLimit => exact stepIn_keeps s _ _ fun v => (Keeps.refl v).runDue _
  case ackTimeout => exact stepIn_keeps s _ _ fun v => (Keeps.refl v).runDue _
  case expired => exact stepIn_keeps s _ _ fun v => (Keeps.refl v).runDue _
  case showStopOnAir => exact stepIn_keeps s _ _ fun v => (Keeps.refl v).runDue _
  case callOnAir => exact stepIn_keeps s _ _ fun v => (Keeps.refl v).runDue _
  case callSpeaking => exact stepIn_keeps s _ _ fun v => (Keeps.refl v).speakCall _
  case holdTimeout => exact stepIn_keeps s _ _ fun v => (Keeps.refl v).runDue _
  case go => exact messageAtBoundary_keeps s _ _
  case standby => exact messageAtBoundary_keeps s _ _
  case halt => exact messageAtBoundary_keeps s _ _
  case resume => exact messageAtBoundary_keeps s _ _
  case voicePlay => exact messageAtBoundary_keeps s _ _
  case voiceStop => exact messageAtBoundary_keeps s _ _
  case callEnd => exact messageAtPass_keeps s _ _ _ _
  case callCancel => exact messageAtPass_keeps s _ _ _ _
  case resetWarm o => exact awake_keeps (effect := fun s => s.messageAtWarm o) ((Keeps.refl s).messageAt _ _ _ fun _ v hp => (Keeps.refl v).takeWarmReset _ hp)
  case showReset o => exact awake_keeps (effect := fun s => s.messageAtShow o) ((Keeps.refl s).messageAt _ _ _ fun _ v _ => (Keeps.refl v).takeShowReset _)
  case resetPinAsserted => exact ⟨_, rfl, (Keeps.refl s).abortAll.quiet⟩
  all_goals exact messageNow_keeps s _ _

/-- Settles O2: a next state and an unchanged queue are what `exec_keeps` gives. -/
theorem noCommandStops : Obligations.NoCommandStops := fun c s =>
  let ⟨t, ht, hk⟩ := exec_keeps c s
  ⟨t, ht, hk.queue⟩

/-- Settles O1, by the two cases of the queue. -/
theorem stepTakesTheFront : Obligations.StepTakesTheFront := by
  refine fun s => ⟨fun h => ?_, fun c rest h => ?_⟩
  · simp only [step, h]
  · simp only [step, h]

/-- Every step that takes a command keeps the laws as the command does; the queue, which no law speaks of, is one shorter. -/
theorem step_keeps {s t : State} (h : step s = .next t) : ∃ rest, Keeps { s with pending := rest } t := by
  cases hp : s.pending with
  | nil =>
    rw [(stepTakesTheFront s).1 hp] at h
    cases h
    exact ⟨s.pending, .refl s⟩
  | cons c rest =>
    obtain ⟨u, hu, hk⟩ := exec_keeps c { s with pending := rest }
    rw [(stepTakesTheFront s).2 c rest hp, hu] at h
    cases h
    exact ⟨rest, hk⟩

/-! ### The invariants -/

/-- Settles O55: law L3 is one of those every step keeps. -/
theorem fadeTableKept : Obligations.FadeTableKept := fun _ _ h hs => (step_keeps hs).choose_spec.fades h

/-- Settles O56: law L5 is one of those every step keeps. -/
theorem clipMemoryKept : Obligations.ClipMemoryKept := fun _ _ h hs => (step_keeps hs).choose_spec.clips h

/-- Settles O57: law L7, with the order of the call queue, is one of those every step keeps. -/
theorem showStopHolds : Obligations.ShowStopHolds := fun _ _ h hs => (step_keeps hs).choose_spec.calls h

/-- Settles O58: law L11, with the order of the cue list, is one of those every step keeps. -/
theorem standbyInList : Obligations.StandbyInList := fun _ _ h hs => (step_keeps hs).choose_spec.list h

/-- Settles O59: the sizes of the stores and the order of the places are among what every step keeps. -/
theorem storesKept : Obligations.StoresKept :=
  ⟨fun _ _ h hs => (step_keeps hs).choose_spec.stores h, fun _ _ h hs => (step_keeps hs).choose_spec.places h⟩

/-- Settles O60: the state after reset is that of a cold reset. -/
theorem resetKeepsLaws : Obligations.ResetKeepsLaws := cold_lawful 1

end Sys2Proof.Machine

/-! SUPPORT. The commands of the pins and of the link outside a boundary: a cold reset, the reset pin, and the arrivals that open no
boundary. -/

namespace Sys2Proof.Machine

open Sys2Proof

/-! ### Tables -/

/-- An entry of a table of equal entries. -/
theorem replicate_at {α : Type} {n : Nat} (x : α) (i : Fin n) : (Vector.replicate n x)[i] = x := by simp

/-! ### Cold reset -/

/-- Send entry 24 + j stands on slot j after a cold reset (Table 3-6). -/
theorem outputEntry_cold_slot (o : Fin 40) (h : 24 ≤ o.val) : (OutputEntry.cold o).slot.val = o.val - 24 := by
  simp [OutputEntry.cold, h]

/-- Every event is enabled after a cold reset (R180). -/
theorem enables_cold (k : Nat) (h : k < 64) : NodeEntry.cold.enables.getLsbD k = true := by
  exact (BitVec.getLsbD_allOnes (v := 64) (i := k)).trans (decide_eq_true h)

/-- No line has been taken after a cold reset (R189). -/
theorem line_cold (l : LineId) : Ports.cold.line l = Line.cold := by
  cases l with
  | go => rfl
  | talk g => exact replicate_at _ g
  | ack z => exact replicate_at _ z
  | presence k => exact replicate_at _ k

/-- Settles O3: each block read off its cold-reset value. -/
theorem coldResetValues : Obligations.ColdResetValues := by
  intro straps s
  refine ⟨_, rfl, rfl, rfl, rfl, rfl, rfl, rfl, rfl, rfl, rfl, rfl, fun i => ?_, fun i b => ?_, fun b => ?_, fun o => ?_, fun g => ?_,
    rfl, rfl, rfl, rfl, rfl, rfl, rfl, rfl, rfl, rfl, fun v => ?_, rfl, rfl, rfl, fun z => ?_, rfl, rfl, rfl, rfl, rfl, rfl, rfl,
    fun k => ?_, rfl, rfl, rfl, rfl, enables_cold, fun l => ?_, rfl⟩
  case refine_1 =>
    have h : (State.cold straps).inputs[i] = InputRecord.cold := replicate_at _ i
    simp [h, InputRecord.cold]
  case refine_2 => exact (congrArg (fun r : Vector LevelCode 32 => r[b]) (replicate_at (Vector.replicate 32 0) i)).trans (replicate_at _ b)
  case refine_3 =>
    have h : (State.cold straps).mix.buses[b] = BusRecord.cold := replicate_at _ b
    simp [h, BusRecord.cold, Config.unity]
  case refine_4 =>
    have h : (State.cold straps).mix.outputs[o] = OutputEntry.cold o := table_at _ o
    exact ⟨by simp [h, OutputEntry.cold], fun ho => by simpa [h] using outputEntry_cold_slot o ho⟩
  case refine_5 =>
    have h : (State.cold straps).mix.talk[g] = TalkGroup.cold := replicate_at _ g
    simp [h, TalkGroup.cold]
  case refine_6 =>
    have h : (State.cold straps).clip.voices[v] = Voice.cold := replicate_at _ v
    simp [h, Voice.cold, Config.unity]
  case refine_7 =>
    have h : (State.cold straps).relay.zones[z] = Zone.cold := replicate_at _ z
    simp [h, Zone.cold, Config.unity]
  case refine_8 => exact replicate_at _ k
  case refine_9 =>
    have h : (State.cold straps).ports.line l = Line.cold := line_cold l
    simp [h, Line.cold]

/-! ### The reset pin -/

/-- A node that stands still takes no command but a cold reset and the pin (R192). -/
theorem exec_of_standsStill {s : State} (h : s.ports.standsStill = true) (c : Instr) (hc : ∀ straps, c ≠ .coldReset straps)
    (hp : c ≠ .resetPinAsserted) : exec c s = .next s := by
  cases c
  case coldReset straps => exact absurd rfl (hc straps)
  case resetPinAsserted => exact absurd rfl hp
  all_goals exact congrArg Host.Outcome.next (if_pos h)

/-- A quiet node shows dark lamps and silent outputs (R188, R190). -/
theorem quiet_ports (s : State) :
    (∀ z : Fin 16, s.quiet.relay.zones[z].lamp = false) ∧ ∀ n : Fin 24, s.quiet.ports.localOut[n] = silence := by
  unfold State.quiet
  exact ⟨fun z => by dsimp only; rw [table_at], fun n => replicate_at _ n⟩

/-- Every voice is IDLE once all in flight is aborted (R192). -/
theorem abortAll_idle (s : State) (v : Fin 8) : s.abortAll.clip.voices[v].state = .idle := by
  unfold State.abortAll
  dsimp only
  rw [table_at]
  rfl

/-- Settles O4: the pin aborts what is in flight and stops the node, and a node that stands still takes nothing more. -/
theorem resetPinStandsStill : Obligations.ResetPinStandsStill := by
  intro s
  obtain ⟨hdark, hquiet⟩ := quiet_ports s.abortAll
  refine ⟨s.abortAll.quiet, rfl, rfl, rfl, hquiet, hdark, rfl, rfl, abortAll_idle s, rfl, rfl, rfl, rfl, rfl, rfl,
    exec_of_standsStill rfl⟩

/-! ### Arrivals that open no boundary -/

/-- A post gated by its condition, after the link has changed: only the message controller and the link move (R160, R168). -/
theorem onLink_postOnce (s : State) (f : Link → Link) (p : Post) (hf : (f s.link).counter = s.link.counter) :
    (s.onLink f).postOnce p = { s with
      link := f s.link, msg := if s.msg.raised p.kind then s.msg else (s.post p).msg } := by
  unfold State.postOnce
  rw [State.onLink_msg]
  split
  · rfl
  · simp only [State.post, State.onMsg, State.onLink, hf]

/-- A frame on the upstream port, or on any port while there is none (R159, R162). -/
theorem takeFrame_up {s : State} {p : Port} {f : Frame} {env : Env} (h : s.link.upstream = none ∨ s.link.upstream = some p) :
    s.takeFrame p f env = if Config.hopLimit ≤ f.hop.toNat then s.dropHops
      else if s.link.state = .locked then s.linkTimedBoundary f env else s.acquire p f.passes := by
  unfold State.takeFrame
  rw [if_neg]
  rcases h with h | h <;> simp [h]

/-- Settles O5, by the cases of an arrival and of the timer. -/
theorem arrivalsOutsideLock : Obligations.ArrivalsOutsideLock := by
  intro p f env s hw
  dsimp only
  have run : ∀ t, s.takeFrame p f env = t → exec (.frameArrival p f env) s = .next t := fun t h => by
    rw [← h]; exact congrArg Host.Outcome.next (if_neg (by simp [hw]))
  have timeout : exec .reacquireTimeout s = .next (s.onLink Link.timeOut) := congrArg Host.Outcome.next (if_neg (by simp [hw]))
  refine ⟨?_, ?_, ?_, ?_, ?_⟩
  · intro q hq hne
    refine run _ ?_
    have hup : s.link.upstream.isSome ∧ s.link.upstream ≠ some p := by
      rw [hq]; exact ⟨rfl, fun e => hne (Option.some.inj e).symm⟩
    unfold State.takeFrame
    rw [if_pos hup]
    exact onLink_postOnce s _ (reversePost p) rfl
  · intro hup hhop
    refine run _ ?_
    rw [takeFrame_up hup, if_pos (show Config.hopLimit ≤ f.hop.toNat from hhop)]
    rfl
  · intro hup hhop
    have hlow : ¬ Config.hopLimit ≤ f.hop.toNat := Nat.not_le.mpr hhop
    have acq : s.link.state ≠ .locked → exec (.frameArrival p f env) s = .next (s.acquire p f.passes) := fun h =>
      run _ (by rw [takeFrame_up hup, if_neg hlow, if_neg h])
    refine ⟨fun hg hs => ?_, fun hg hs hc => ?_, fun hg hs hc => ?_, fun hg hs => ?_, fun hg hs => ?_⟩
    · rcases hs with hs | hs <;> rw [acq (by simp [hs])] <;> simp [State.acquire, hs, hg, State.onLink, Link.begin]
    · have : ¬ Config.lockCount ≤ s.link.reacquire + 1 := by simp only [Config.lockCount]; omega
      rw [acq (by simp [hs])]
      simp [State.acquire, hs, hg, State.onLink, Link.again, this]
    · rw [acq (by simp [hs])]
      simp [State.acquire, hs, hg, State.onLink, Link.again, hc, Config.lockCount]
    · rw [acq (by simp [hs])]
      simp only [State.acquire, hs, hg, State.countDamaged]
      rw [onLink_postOnce _ _ _ rfl]
      rfl
    · rw [acq (by rcases hs with hs | hs <;> simp [hs])]
      have : s.acquire p f.passes = (s.countDamaged s.link.state).onLink fun l => { l with timerRunning := true } := by
        rcases hs with hs | hs <;> simp only [State.acquire, hs, hg]
      rw [this, State.countDamaged, onLink_postOnce _ _ _ rfl]
      rfl
  · intro h
    rw [timeout]
    simp [State.onLink, Link.timeOut, h, Link.drop]
  · intro h
    rw [timeout]
    rcases h with h | h <;> simp [State.onLink, Link.timeOut, h]

end Sys2Proof.Machine

/-! SUPPORT. The sample arithmetic: rounding and the limiter, and the values a fade takes. -/

namespace Sys2Proof.Machine

open Sys2Proof

/-! ### Rounding and the limiter (R3, R12 to R14) -/

/-- Rounding a quotient keeps it within whole bounds (R3). -/
theorem roundDiv_bounds {x d t : Int} (hd : 0 < d) (hl : -(t * d) ≤ x) (hu : x ≤ t * d) :
    -t ≤ roundDiv x d ∧ roundDiv x d ≤ t := by
  have hq := Int.mul_ediv_add_emod x d
  have h0 := Int.emod_nonneg x (Int.ne_of_gt hd)
  have hlt := Int.emod_lt_of_pos x hd
  have low : -t ≤ x / d := Int.le_ediv_of_mul_le hd (by rw [Int.neg_mul]; exact hl)
  have high : x / d ≤ t := Int.ediv_le_of_le_mul hd hu
  have exact_top : x / d = t → x % d = 0 := fun e => by
    rw [e, Int.mul_comm] at hq
    omega
  unfold roundDiv
  dsimp only
  split
  · exact ⟨low, high⟩
  · have below : x / d ≠ t := fun e => by have := exact_top e; omega
    (repeat' split) <;> omega

/-- A product within a multiple of unity is reduced to within that multiple (R3). -/
theorem roundQ_natAbs_le {x : Int} {t : Nat} (h : x.natAbs ≤ t * Config.unity) : (roundQ x).natAbs ≤ t := by
  obtain ⟨h1, h2⟩ := roundDiv_bounds (x := x) (d := (Config.unity : Int)) (t := t) (by decide) (by omega) (by omega)
  unfold roundQ
  omega

/-- Saturation never raises a magnitude (R3). -/
theorem saturate_natAbs_le (x : Int) : (saturate x).natAbs ≤ x.natAbs := by
  simp only [saturate, Config.sampleMin, Config.sampleMax]
  omega

/-- The required gain takes a peak to the threshold at most (R13). -/
theorem mul_requiredGain_le (t p : Nat) : p * requiredGain t p ≤ t * Config.unity := by
  unfold requiredGain
  split
  · next h => exact Nat.mul_le_mul_right _ h
  · exact Nat.mul_div_le _ _

/-- A sample no larger than the peak is limited to the threshold (R13, R14). -/
theorem limitedSample_natAbs_le {x : Int} {t p held release : Nat} (h : x.natAbs ≤ p) :
    (limitedSample x (limiterGain (requiredGain t p) held release)).natAbs ≤ t := by
  refine Nat.le_trans (saturate_natAbs_le _) (roundQ_natAbs_le ?_)
  rw [Int.natAbs_mul, Int.natAbs_natCast]
  exact Nat.le_trans (Nat.mul_le_mul h (Nat.min_le_left _ _)) (mul_requiredGain_le t p)

/-- Settles O13: the limiter's gain takes the peak of the frame, and with it every sample, to the threshold at most. -/
theorem limiterKeepsThreshold : Obligations.LimiterKeepsThreshold := by
  intro s signals b n hk hl
  have hu : s.mix.buses[b].entry.kind ≠ .unused := by rw [hk]; decide
  unfold State.busFrame
  dsimp only
  rw [if_neg hu, if_pos ⟨hk, hl⟩]
  dsimp only
  rw [table_at]
  exact limitedSample_natAbs_le ((peak_spec _).1 n)

/-! ### Fades (R17, R18) -/

/-- A part of a difference, truncated, is between nothing and the whole of it (R17). -/
theorem tdiv_part_bounds (c : Int) {m d : Int} (h0 : 0 ≤ m) (hm : m ≤ d) (hd : 0 < d) :
    min 0 c ≤ Int.tdiv (c * m) d ∧ Int.tdiv (c * m) d ≤ max 0 c := by
  rcases Int.le_total 0 c with hc | hc
  · have hp : 0 ≤ c * m := Int.mul_nonneg hc h0
    rw [Int.tdiv_eq_ediv_of_nonneg hp]
    have h1 : 0 ≤ c * m / d := Int.ediv_nonneg hp (Int.le_of_lt hd)
    have h2 : c * m / d ≤ c := Int.ediv_le_of_le_mul hd (Int.mul_le_mul_of_nonneg_left hm hc)
    omega
  · have hp : 0 ≤ (-c) * m := Int.mul_nonneg (by omega) h0
    have e : Int.tdiv (c * m) d = -((-c) * m / d) := by
      rw [← Int.tdiv_eq_ediv_of_nonneg hp, Int.neg_mul, Int.neg_tdiv, Int.neg_neg]
    have h1 : 0 ≤ (-c) * m / d := Int.ediv_nonneg hp (Int.le_of_lt hd)
    have h2 : (-c) * m / d ≤ -c := Int.ediv_le_of_le_mul hd (Int.mul_le_mul_of_nonneg_left hm (by omega))
    omega

/-- A LINEAR fade stays between its two gains (R17). -/
theorem linearGain_bounds (a b : Int) {d k n : Nat} (hk : k < d) (hn : n < 48) :
    min a b ≤ linearGain a b d k n ∧ linearGain a b d k n ≤ max a b := by
  have h := tdiv_part_bounds (b - a) (m := 48 * k + n + 1) (d := 48 * d) (by omega) (by omega) (by omega)
  unfold linearGain
  omega

/-- A LINEAR fade lands on its end (R17). -/
theorem linearGain_last (a b : Int) {d : Nat} (hd : 0 < d) : linearGain a b d (d - 1) 47 = b := by
  have e : (48 * ((d - 1 : Nat) : Int) + ((47 : Nat) : Int) + 1) = 48 * d := by omega
  unfold linearGain
  rw [e, Int.mul_tdiv_cancel _ (by omega)]
  omega

/-- The code of a LEVEL fade is the interpolated number: it needs no clamp (R18). -/
theorem levelAt_val (a b : LevelCode) {d k : Nat} (hk : k < d) :
    min a.val b.val ≤ (levelAt a b d k).val ∧ (levelAt a b d k).val ≤ max a.val b.val
      ∧ ((levelAt a b d k).val : Int) = (a.val : Int) + Int.tdiv (((b.val : Int) - a.val) * (k + 1)) d := by
  have h := tdiv_part_bounds ((b.val : Int) - a.val) (m := k + 1) (d := d) (by omega) (by omega) (by omega)
  have ha := a.isLt
  have hb := b.isLt
  unfold levelAt
  rw [clampCode_val]
  omega

/-- A LEVEL fade lands on its end (R18). -/
theorem levelAt_last (a b : LevelCode) {d : Nat} (hd : 0 < d) : levelAt a b d (d - 1) = b := by
  obtain ⟨-, -, h⟩ := levelAt_val a b (d := d) (k := d - 1) (by omega)
  have e : (((d - 1 : Nat) : Int) + 1) = d := by omega
  rw [e, Int.mul_tdiv_cancel _ (by omega)] at h
  exact Fin.ext (by omega)

/-- Settles O15, by the shape of the fade. -/
theorem fadesStayBetween : Obligations.FadesStayBetween := by
  intro f k n hk hn
  constructor
  · intro a ha
    obtain ⟨h1, h2⟩ := linearGain_bounds a (lin f.endCode) hk hn
    have hl := linearGain_last a (lin f.endCode) (d := f.frames) (by omega)
    simp only [Fade.gainAt, ha, hl]
    omega
  · intro c hc
    obtain ⟨h1, h2, -⟩ := levelAt_val c f.endCode hk
    refine ⟨?_, ?_, by simp only [Fade.gainAt, hc], levelAt_last c f.endCode (by omega)⟩
    · simpa only [Fin.le_def, Fin.coe_min] using h1
    · simpa only [Fin.le_def, Fin.coe_max] using h2

end Sys2Proof.Machine

/-! SUPPORT. The local lines: what a boundary samples, and the taking of a level. -/

namespace Sys2Proof.Machine

open Sys2Proof

/-! ### The end of a frame and the ports -/

@[simp] theorem post_ports (s : State) (p : Post) : (s.post p).ports = s.ports := rfl

@[simp] theorem postAll_ports (s : State) (ps : List Post) : (s.postAll ps).ports = s.ports :=
  foldl_keeps State.ports State.post (fun s p => post_ports s p) ps s

@[simp] theorem meterInputs_ports (s : State) : s.meterInputs.ports = s.ports := by
  unfold State.meterInputs; dsimp only; rw [postAll_ports, State.onInputs_ports]

@[simp] theorem meterBuses_ports (s : State) : s.meterBuses.ports = s.ports := by
  unfold State.meterBuses; dsimp only; rw [postAll_ports, State.onMix_ports]

/-- Work run once that leaves the ports alone. -/
theorem runOnce_ports {s : State} {it : Item} {work : State → State} (h : ∀ t : State, (work t).ports = t.ports) :
    (s.runOnce it work).ports = s.ports := by
  unfold State.runOnce
  split
  · rw [h, State.onDue_ports]
  · rfl

/-- The meters of a frame leave the ports alone. -/
theorem meter_ports {it : Item} (h : isMeter it = true) (s : State) : (s.runDue it).ports = s.ports := by
  refine runOnce_ports fun t => ?_
  cases it
  case inputMeters => exact meterInputs_ports t
  case busMeters => exact meterBuses_ports t
  case meters =>
    show t.takeMeters.ports = t.ports
    unfold State.takeMeters
    dsimp only
    rw [State.latePosts, State.onMsg_ports, runOnce_ports meterBuses_ports, runOnce_ports meterInputs_ports, State.onMsg_ports]
  all_goals cases h

/-- Closing a frame leaves the ports alone. -/
theorem closeFrame_ports (s : State) : s.closeFrame.ports = s.ports := by unfold State.closeFrame; rfl

/-- A run of meters leaves the ports alone. -/
theorem meters_ports (its : List Item) (h : ∀ it ∈ its, isMeter it = true) (s : State) :
    (its.foldl State.runDue s).ports = s.ports := by
  induction its generalizing s with
  | nil => rfl
  | cons it its ih =>
    rw [List.foldl_cons, ih (fun x hx => h x (List.mem_cons_of_mem _ hx)), meter_ports (h it List.mem_cons_self)]

/-- The end of a frame leaves the ports alone. -/
theorem endFrame_ports (s : State) : s.endFrame.ports = s.ports := by
  unfold State.endFrame
  split
  · rw [closeFrame_ports, meters_ports _ fun it h => (List.mem_filter.mp h).2]
  · rfl

/-- A boundary that takes none of its work opens, with what the local side brings. -/
theorem localTimedBoundary_open {s : State} {env : Env} (hb : s.between) (ho : env.order = []) (hr : env.rest = false) :
    (s.localTimedBoundary env).ports = s.ports.openBoundary env .localRate := by
  unfold State.localTimedBoundary State.work
  rw [ho, hr]
  show (s.settle.endFrame).ports.openBoundary env .localRate = _
  rw [endFrame_ports, settle_between s hb.2]

/-! ### Lines (R189, R190) -/

/-- The level of a line's pin as a boundary samples it. -/
def pinLevel (p : Pins) : LineId → Bool
  | .go => p.go
  | .talk g => p.talk.getLsbD g.val
  | .ack z => p.ack.getLsbD z.val
  | .presence k => p.presence.getLsbD k.val

/-- A boundary samples every line once. -/
theorem openBoundary_line (env : Env) (c : Clocking) (p : Ports) (line : LineId) :
    (p.openBoundary env c).line line = (p.line line).sample (pinLevel env.pins line) := by
  cases line with
  | go => rfl
  | talk g => exact table_at _ g
  | ack z => exact table_at _ z
  | presence k => exact table_at _ k

/-- The line whose level is taken. -/
theorem takeLine_same (p : Ports) (line : LineId) : (p.takeLine line).line line = (p.line line).take := by
  cases line with
  | go => rfl
  | talk g => exact alter_same _ g _
  | ack z => exact alter_same _ z _
  | presence k => exact alter_same _ k _

/-- The lines whose level is not taken. -/
theorem takeLine_other (p : Ports) {line other : LineId} (h : other ≠ line) : (p.takeLine line).line other = p.line other := by
  cases line <;> cases other
  case go.go => exact absurd rfl h
  case talk.talk g k => exact alter_other _ g k _ fun e => h (by rw [e])
  case ack.ack z k => exact alter_other _ z k _ fun e => h (by rw [e])
  case presence.presence k j => exact alter_other _ k j _ fun e => h (by rw [e])
  all_goals rfl

/-- A ready line takes its candidate. -/
theorem take_of_ready {l : Line} {x : Bool} (hc : l.candidate = some x) (hr : 20 ≤ l.run) :
    l.ready = true ∧ l.take = { taken := some x, candidate := none, run := 0 } := by
  have h : l.ready = true := by simp [Line.ready, hc, Config.debounceRun, hr]
  exact ⟨h, by simp [Line.take, h, hc]⟩

/-- The pressed edge of the GO line is all that a taking hands on (R190). -/
theorem takeLine_goPressed {p : Ports} {line : LineId} {x : Bool} (hc : (p.line line).candidate = some x)
    (hr : 20 ≤ (p.line line).run) :
    (p.takeLine line).goPressed = (p.goPressed || (line == .go && x && p.go.taken == some false)) := by
  cases line with
  | go =>
    have hc' : p.go.candidate = some x := hc
    obtain ⟨h, -⟩ := take_of_ready hc' hr
    show (p.goPressed || p.go.pressing) = _
    rw [Line.pressing, h, hc']
    cases x <;> simp
  | talk g => simp [Ports.takeLine]
  | ack z => simp [Ports.takeLine]
  | presence k => simp [Ports.takeLine]

/-- A step command on an item that is next and happens has its effect. -/
theorem stepIn_next {s : State} {it : Item} {happens : State → Bool} {effect : State → State} (ha : s.atItem it)
    (hh : happens s = true) : (s.awake fun s => s.stepIn it happens effect) = .next (effect s) := by
  rw [awake_next ha.1, stepIn_atItem ha hh]

/-- Settles O9: a boundary samples each line, and a ready line takes its candidate. -/
theorem levelTaken : Obligations.LevelTaken := by
  constructor
  · intro env s hb hl ho hr pin
    have hp : pin = pinLevel env.pins := by funext line; cases line <;> rfl
    refine ⟨s.localTimedBoundary env, ?_, fun line => ?_⟩
    · have hw : ¬ s.ports.standsStill = true := by rw [hb.1]; decide
      exact congrArg Host.Outcome.next ((if_neg hw).trans (if_neg (by rw [hl]; decide)))
    · rw [localTimedBoundary_open hb ho hr, openBoundary_line, hp]
      dsimp only
      generalize s.ports.line line = l
      refine ⟨fun h => ?_, fun h1 h2 h3 => ?_, fun h1 h2 => ?_⟩
      · simp [Line.sample, h]
      · have : min Config.debounceRun (l.run + 1) = l.run + 1 := Nat.min_eq_right h3
        simp only [Line.sample, if_neg h1, if_pos h2, this]
      · simp only [Line.sample, if_neg h1, if_neg h2]
  · intro line x s ha hc hr
    obtain ⟨hready, htake⟩ := take_of_ready hc hr
    refine ⟨s.ports.takeLine line, ?_, (takeLine_same _ _).trans htake, fun other h => takeLine_other _ h,
      takeLine_goPressed hc hr, ?_, ?_, ?_, takeLine_standsStill _ _⟩
    · exact stepIn_next (effect := fun p => p.onPorts fun q => q.takeLine line) ha hready
    all_goals cases line <;> rfl

end Sys2Proof.Machine

/-! SUPPORT. Input supervision: the counts of a frame, the carried source, and the transitions. -/

namespace Sys2Proof.Machine

open Sys2Proof

/-! ### The counts and the carried source (R27, R31 to R33) -/

/-- A source is there and valid. -/
theorem validSource_iff (valid : Src → Bool) (x : Option Src) :
    validSource valid x = true ↔ ∃ y, x = some y ∧ valid y = true := by
  cases x <;> simp [validSource]

/-- No source is there, or it is not valid. -/
theorem validSource_false_iff (valid : Src → Bool) (x : Option Src) :
    validSource valid x = false ↔ ∀ y, x = some y → valid y = false := by
  cases x <;> simp [validSource]

/-- The count of an input that is not IDLE (R27). -/
theorem count_of_active {valid : Src → Bool} {r : InputRecord} (h : r.state ≠ .idle) :
    r.count valid = { r with
      primaryRun := run (validSource valid r.entry.source) r.primaryRun
      spareRun := run (validSource valid r.entry.spare) r.spareRun
      invalidRun := run (!validSource valid r.activeSource) r.invalidRun } := if_neg h

/-- The count of an IDLE input (R31). -/
theorem count_of_idle {valid : Src → Bool} {r : InputRecord} (h : r.state = .idle) :
    r.count valid = { r with invalidRun := 0, primaryRun := 0, spareRun := 0 } := if_pos h

/-- Whatever it counts, a count changes the three runs alone. -/
theorem count_runs (valid : Src → Bool) (r : InputRecord) :
    r.count valid = { r with
      primaryRun := (r.count valid).primaryRun, spareRun := (r.count valid).spareRun
      invalidRun := (r.count valid).invalidRun } := by
  unfold InputRecord.count
  split <;> rfl

/-- A run that goes on counts, and a broken one is 0 (R27). -/
theorem run_cases {b : Bool} {p : Prop} (h : b = true ↔ p) (n : Nat) :
    (p → run b n = min 65535 (n + 1)) ∧ (¬ p → run b n = 0) :=
  ⟨fun hp => by rw [h.mpr hp]; rfl, fun hp => by rw [Bool.eq_false_iff.mpr (mt h.mp hp)]; rfl⟩

/-- A source carried without a change (R33). -/
theorem carry_of_same {valid : Src → Bool} {r : InputRecord} (h : r.stateSource = r.carried) :
    r.carry valid = { r with outgoing := none } := by
  simp [InputRecord.carry, h]

/-- A change of source after a loss transition, or to a source that is not valid, is a hard cut (R33). -/
theorem carry_of_cut {valid : Src → Bool} {r : InputRecord}
    (h : r.lossCut = true ∨ (validSource valid r.stateSource = false ∧ r.state ≠ .idle)) :
    r.carry valid = { r with carried := r.stateSource, outgoing := none } := by
  rcases h with h | ⟨h, hi⟩
  · simp [InputRecord.carry, h]
  · have : (r.state == .idle) = false := by simpa using hi
    simp [InputRecord.carry, h, this]

/-- A change to a valid source is a crossfade (R33). -/
theorem carry_of_crossfade {valid : Src → Bool} {r : InputRecord} (h : r.stateSource ≠ r.carried) (hl : r.lossCut = false)
    (hv : validSource valid r.stateSource = true) :
    r.carry valid = { r with carried := r.stateSource, outgoing := some r.carried } := by
  simp [InputRecord.carry, h, hl, hv]

/-- A write of source NONE does what the free constant says (R33, R34; log entry 8). -/
theorem carry_of_idle {valid : Src → Bool} {r : InputRecord} (h : r.stateSource ≠ r.carried) (hl : r.lossCut = false)
    (hi : r.state = .idle) :
    r.carry valid = { r with carried := none, outgoing := if Config.noneFades then some r.carried else none } := by
  have hn : r.stateSource = none := by simp [InputRecord.stateSource, hi]
  have hc : (none : Option Src) ≠ r.carried := hn ▸ h
  simp [InputRecord.carry, hn, hl, hi, hc, validSource]

/-! ### The transitions (R28 to R30) -/

/-- A transition that is there stores the record it reaches and posts its event (R41). -/
theorem takeTransition_some {s : State} {i : Fin 64} {t : Transition} {f : InputRecord → InputRecord} {p : Post}
    (h : t = some (f s.inputs[i], p)) : s.takeTransition i t = (s.onInput i f).post p := by
  rw [h]; rfl

/-- An input in PRIMARY at its loss threshold (R28). -/
theorem primaryLoss_eq {valid : Src → Bool} {i : Fin 64} {r : InputRecord} (hf : r.entry.lossThreshold ≤ r.invalidRun)
    (hs : r.state = .primary) (ha : r.active = .primary) :
    r.primaryLoss valid i = some (if validSource valid r.entry.spare then
        ({ r with state := .spare, active := .spare, invalidRun := 0, lossCut := true }, substitutedPost i false)
      else ({ r with state := .lost, lossCut := true }, lossPost i .primary r.entry.spare.isSome)) := by
  have hfail : r.failed = true := decide_eq_true hf
  unfold InputRecord.primaryLoss
  rw [if_pos ⟨hs, hfail⟩]
  split
  · next h => simp [InputRecord.moveTo, ha, h]
  · simp [InputRecord.moveTo, ha]

/-- An input in SPARE at its loss threshold (R29 cases 1 and 2). -/
theorem spareLoss_eq {valid : Src → Bool} {i : Fin 64} {r : InputRecord} (hf : r.entry.lossThreshold ≤ r.invalidRun)
    (hs : r.state = .spare) (ha : r.active = .spare) :
    r.spareLoss valid i = some (if validSource valid r.entry.source then
        ({ r with state := .primary, active := .primary, invalidRun := 0, lossCut := true, forced := false }, returnedPost i)
      else ({ r with state := .lost, active := .primary, invalidRun := 1, lossCut := true, forced := false },
        lossPost i .spare r.entry.spare.isSome)) := by
  have hfail : r.failed = true := decide_eq_true hf
  unfold InputRecord.spareLoss
  rw [if_pos ⟨hs, hfail⟩]
  split
  · next h => simp [InputRecord.moveTo, ha, h]
  · next h => simp [InputRecord.moveTo, ha, h]

/-- An unforced input in SPARE whose primary has recovered (R29 case 3). -/
theorem autoReturn_eq {valid : Src → Bool} {i : Fin 64} {r : InputRecord} (hs : r.state = .spare) (ha : r.active = .spare)
    (hf : r.invalidRun < r.entry.lossThreshold) (hauto : r.entry.autoReturn = true) (hforced : r.forced = false)
    (hr : r.entry.restoreThreshold ≤ r.primaryRun) (hv : validSource valid r.entry.source = true) :
    r.autoReturn valid i
      = some ({ r with state := .primary, active := .primary, invalidRun := 0 }, restoredPost i false) := by
  have hfail : r.failed = false := decide_eq_false (Nat.not_le.mpr hf)
  unfold InputRecord.autoReturn
  rw [if_pos ⟨hs, hfail, hauto, hforced, hr⟩]
  simp [InputRecord.moveTo, ha, hv, hforced]

/-- A LOST input whose primary has been valid long enough (R30). -/
theorem restore_primary {valid : Src → Bool} {i : Fin 64} {r : InputRecord} (hs : r.state = .lost) (ha : r.active = .primary)
    (hr : r.entry.restoreThreshold ≤ r.primaryRun) :
    r.restore valid i = some ({ r with state := .primary }, restoredPost i true) := by
  unfold InputRecord.restore
  rw [if_pos hs, if_pos hr]
  simp [InputRecord.moveTo, ha]

/-- A LOST input whose spare has been valid long enough and whose primary has not (R30). -/
theorem restore_spare {valid : Src → Bool} {i : Fin 64} {r : InputRecord} (hs : r.state = .lost) (ha : r.active = .primary)
    (hr : r.primaryRun < r.entry.restoreThreshold) (hr2 : r.entry.restoreThreshold ≤ r.spareRun)
    (hv : validSource valid r.entry.spare = true) :
    r.restore valid i = some ({ r with state := .spare, active := .spare, invalidRun := 0 }, substitutedPost i true) := by
  have hd : r.entry.spare.isSome := by
    obtain ⟨y, hy, -⟩ := (validSource_iff _ _).mp hv
    rw [hy]; rfl
  unfold InputRecord.restore
  rw [if_pos hs, if_neg (Nat.not_le.mpr hr), if_pos ⟨hd, hr2⟩]
  simp [InputRecord.moveTo, ha, hv]

/-- The command of a transition that is there: it stores the record it reaches and posts its event. -/
theorem transition_next {s : State} {i : Fin 64} {t : State → Transition} {f : InputRecord → InputRecord} {p : Post}
    (ha : s.atItem .transitions) (h : t s = some (f s.inputs[i], p)) :
    (s.awake fun s => s.stepIn .transitions (fun q => (t q).isSome) fun q => q.takeTransition i (t q))
      = .next ((s.onInput i f).post p) := by
  rw [stepIn_next ha (by rw [h]; rfl), takeTransition_some h]

/-- Settles O10: the count, the carried source, and each transition from its case. -/
theorem supervisionTransitions : Obligations.SupervisionTransitions := by
  refine ⟨fun s i => ?_, fun s i => ?_, fun i s ha => ?_⟩
  · have hq : (runItem .count s).inputs[i] = s.inputs[i].count s.sourceValid := table_at _ i
    dsimp only
    rw [hq]
    refine ⟨count_runs _ _, rfl, fun h => ?_, fun h => ?_⟩
    · rw [count_of_idle h]; exact ⟨rfl, rfl, rfl⟩
    · rw [count_of_active h]
      obtain ⟨p1, p2⟩ := run_cases (validSource_iff s.sourceValid s.inputs[i].entry.source) s.inputs[i].primaryRun
      obtain ⟨s1, s2⟩ := run_cases (validSource_iff s.sourceValid s.inputs[i].entry.spare) s.inputs[i].spareRun
      have hv := validSource_iff s.sourceValid s.inputs[i].activeSource
      obtain ⟨v1, v2⟩ := run_cases (b := !validSource s.sourceValid s.inputs[i].activeSource)
        (p := ¬ ∃ y, s.inputs[i].activeSource = some y ∧ s.sourceValid y = true) (by rw [← hv]; simp) s.inputs[i].invalidRun
      exact ⟨p1, p2, s1, s2, fun h => v2 (not_not_intro h), v1⟩
  · have ht : (runItem .carry s).inputs[i] = s.inputs[i].carry s.sourceValid := table_at _ i
    have hv := validSource_iff s.sourceValid s.inputs[i].stateSource
    dsimp only
    rw [ht]
    refine ⟨rfl, carry_of_same, fun hn hc => ?_, fun hn hl hw => carry_of_crossfade hn hl (hv.mpr hw), carry_of_idle⟩
    exact carry_of_cut (hc.imp_right fun ⟨hw, hi⟩ => ⟨Bool.eq_false_iff.mpr (mt hv.mp hw), hi⟩)
  · refine ⟨fun hf => ⟨fun hs hact hw => ?_, fun hs hact hw => ?_, fun hs hact hw => ?_, fun hs hact hw => ?_⟩,
      fun hs hact hf hauto hforced hr hw => ?_, fun hs hact hr => ?_, fun hs hact hr hr2 hw => ?_⟩
    · refine transition_next ha ((primaryLoss_eq hf hs hact).trans ?_)
      rw [if_pos ((validSource_iff _ _).mpr hw)]; rfl
    · refine transition_next ha ((primaryLoss_eq hf hs hact).trans ?_)
      rw [if_neg (by rw [(validSource_false_iff _ _).mpr hw]; decide)]; rfl
    · refine transition_next ha ((spareLoss_eq hf hs hact).trans ?_)
      rw [if_pos ((validSource_iff _ _).mpr hw)]; rfl
    · refine transition_next ha ((spareLoss_eq hf hs hact).trans ?_)
      rw [if_neg (by rw [(validSource_false_iff _ _).mpr hw]; decide)]; rfl
    · exact transition_next ha (autoReturn_eq hs hact hf hauto hforced hr ((validSource_iff _ _).mpr hw))
    · exact transition_next ha (restore_primary hs hact hr)
    · exact transition_next ha (restore_spare hs hact hr hr2 ((validSource_iff _ _).mpr hw))

end Sys2Proof.Machine

/-! SUPPORT. Operand checks, and messages settled at execution: a refusal leaves its code, and an acceptance its reply. INPUT SELECT
and TALK. -/

namespace Sys2Proof.Machine

open Sys2Proof

/-! ### Operands -/

/-- An index beyond its table (R175). -/
theorem index_of_le {n : Nat} {b : U8} (h : n ≤ b.toNat) : index n b = none := dif_neg (Nat.not_lt.mpr h)

/-- An index of its table. -/
theorem index_of_eq {n : Nat} {b : U8} {i : Fin n} (h : i.val = b.toNat) : index n b = some i := by
  unfold index
  rw [dif_pos (h ▸ i.isLt)]
  exact congrArg some (Fin.ext h.symm)

/-- A value that is neither of the two. -/
theorem flagValue_of_le {b : U8} (h : 2 ≤ b.toNat) : flagValue b = none := by
  have h0 : b ≠ 0 := by rintro rfl; exact absurd h (by decide)
  have h1 : b ≠ 1 := by rintro rfl; exact absurd h (by decide)
  rw [flagValue, if_neg h0, if_neg h1]

/-- One of the two values. -/
theorem flagValue_of_eq {b : U8} {on : Bool} (h : b = if on then 1 else 0) : flagValue b = some on := by
  subst h; cases on <;> rfl

/-! ### Messages settled at execution -/

/-- Only the kinds that read are dropped for a group or for broadcast (Table 9-4). -/
theorem not_dropped (o : Origin) {r : Request} (h : readOnly r = false) : dropped o r = false := by
  cases o <;> simp [dropped, h]

/-- What the validity of a source depends on is not the message controller. -/
@[simp] theorem onMsg_sourceValid (s : State) (f : Msg → Msg) : (s.onMsg f).sourceValid = s.sourceValid := rfl

/-- A command whose message its owner answers at execution, alike before and after the message is placed. -/
theorem now_replied {s : State} (t : State) {o : Origin} {r : Request} {res : Result} (hb : s.between) (hh : s.hears o)
    (hd : dropped o r = false) (hs : settling r = .now)
    (hset : settleNow o r (s.onMsg fun m => m.placed o) = (res, t.onMsg fun m => m.placed o))
    (hr : t.msg.replies = s.msg.replies) (hn : t.msg.nextPlace = s.msg.nextPlace) :
    (s.awake fun s => s.messageNow o r) = .next (t.replied o res) := by
  rw [awake_next hb.1, messageNow_replied hb hh hd hs hset hr hn]

/-- A command whose message its owner refuses at execution: nothing but the reply (R175). -/
theorem now_refused {s : State} {o : Origin} {r : Request} {code : ResultCode} (hb : s.between) (hh : s.hears o)
    (hd : dropped o r = false) (hs : settling r = .now)
    (hset : settleNow o r (s.onMsg fun m => m.placed o) = refuse code (s.onMsg fun m => m.placed o)) :
    (s.awake fun s => s.messageNow o r) = .next (s.replied o { code := code }) :=
  now_replied s hb hh hd hs hset rfl rfl

/-! ### INPUT SELECT (R36) -/

/-- The source that an INPUT SELECT chooses. -/
def InputRecord.chosen (r : InputRecord) (side : Side) : Option Src :=
  if side = .primary then r.entry.source else r.entry.spare

/-- INPUT SELECT of an input that is there: the checks in order. -/
theorem selectInput_eq {input choice : U8} {i : Fin 64} {side : Side} (hi : i.val = input.toNat)
    (hc : choice = if side = .primary then 0 else 1) (s : State) :
    selectInput input choice s =
      if s.inputs[i].entry.spare = none then refuse .range s
      else if validSource s.sourceValid (s.inputs[i].chosen side) = false then refuse .invalidSource s
      else ({ code := .ok, data := byte s.inputs[i].state.ctorIdx ++ byte s.inputs[i].active.ctorIdx },
        s.onMsg fun m => { m with accepted := m.accepted ++ [.select i side] }) := by
  unfold selectInput
  rw [index_of_eq hi]
  dsimp only
  subst hc
  cases side <;> rfl

/-- INPUT SELECT of an input or a side that there is not. -/
theorem selectInput_range {input choice : U8} (h : 64 ≤ input.toNat ∨ 2 ≤ choice.toNat) (s : State) :
    selectInput input choice s = refuse .range s := by
  unfold selectInput
  rcases h with h | h
  · rw [index_of_le h]
  · cases index 64 input with
    | none => rfl
    | some i => exact if_pos h

/-- Settles O11, by the checks in their order. -/
theorem inputSelectChecked : Obligations.InputSelectChecked := by
  intro o input choice s hb hh
  have hd := not_dropped o (r := .inputSelect input choice) rfl
  refine ⟨fun h => now_refused hb hh hd rfl (selectInput_range h _), fun i side hi hc => ?_⟩
  have hset := selectInput_eq hi hc (s.onMsg fun m => m.placed o)
  refine ⟨fun hn => now_refused hb hh hd rfl (hset.trans (if_pos hn)), fun hn hv => ?_, fun hn hv => ?_⟩
  · have hv : validSource s.sourceValid (s.inputs[i].chosen side) = false := (validSource_false_iff _ _).mpr hv
    exact now_refused hb hh hd rfl (hset.trans ((if_neg hn).trans (if_pos hv)))
  · have hv : ¬ validSource s.sourceValid (s.inputs[i].chosen side) = false := by
      rw [(validSource_iff s.sourceValid (s.inputs[i].chosen side)).mpr hv]; decide
    refine now_replied (s.onMsg fun m => { m with accepted := m.accepted ++ [.select i side] }) hb hh hd rfl
      (hset.trans ((if_neg hn).trans ((if_neg hv).trans ?_))) rfl rfl
    cases o <;> rfl

/-! ### TALK (R64, R65) -/

/-- The latches after TALKs, in the order in which they were taken. -/
def latched (talk : Vector TalkGroup 4) (xs : List (Fin 4 × Bool)) : Vector TalkGroup 4 :=
  xs.foldl (fun v x => alter v x.1 fun g => { g with latch := x.2 }) talk

/-- The TALKs that apply change the latches and are gone. -/
theorem applyTalks_eq (s : State) : s.applyTalks = { s with
    mix := { s.mix with talk := latched s.mix.talk s.msg.talks }, msg := { s.msg with talks := [] } } := by
  have fold : ∀ (xs : List (Fin 4 × Bool)) (t : State),
      xs.foldl (fun t x => t.onTalk x.1 fun g => { g with latch := x.2 }) t
        = { t with mix := { t.mix with talk := latched t.mix.talk xs } } := by
    intro xs
    induction xs with
    | nil => intro t; rfl
    | cons x xs ih => intro t; exact ih _
  unfold State.applyTalks
  rw [fold]
  rfl

/-- A group that none names keeps its latch. -/
theorem latched_other {xs : List (Fin 4 × Bool)} {g : Fin 4} (h : ∀ x ∈ xs, x.1 ≠ g) (talk : Vector TalkGroup 4) :
    (latched talk xs)[g] = talk[g] := by
  induction xs generalizing talk with
  | nil => rfl
  | cons x xs ih =>
    exact (ih (fun y hy => h y (List.mem_cons_of_mem _ hy)) _).trans (alter_other _ _ _ _ (h x List.mem_cons_self))

/-- The entry of a group stays through TALKs that leave its latch. -/
theorem latched_rest (xs : List (Fin 4 × Bool)) (g : Fin 4) (talk : Vector TalkGroup 4) (on : Bool) :
    { (latched talk xs)[g] with latch := on } = { talk[g] with latch := on } := by
  induction xs generalizing talk with
  | nil => rfl
  | cons x xs ih =>
    refine (ih _).trans ?_
    by_cases e : x.1 = g
    · subst e; exact congrArg (fun r : TalkGroup => { r with latch := on }) (alter_same talk x.1 _)
    · exact congrArg (fun r : TalkGroup => { r with latch := on }) (alter_other talk x.1 g _ e)

/-- The last TALK of a group leaves its latch. -/
theorem latched_last {before later : List (Fin 4 × Bool)} {g : Fin 4} {on : Bool} (h : ∀ x ∈ later, x.1 ≠ g)
    (talk : Vector TalkGroup 4) :
    (latched talk (before ++ (g, on) :: later))[g] = { talk[g] with latch := on } := by
  have hl : latched talk (before ++ (g, on) :: later)
      = latched (alter (latched talk before) g fun r => { r with latch := on }) later := List.foldl_append
  rw [hl, latched_other h]
  exact (alter_same _ g _).trans (latched_rest before g talk on)

/-- TALK of a group and a setting that there are. -/
theorem talkMessage_eq {group setting : U8} {g : Fin 4} {on : Bool} (hg : g.val = group.toNat)
    (hs : setting = if on then 1 else 0) (s : State) :
    talkMessage group setting s =
      ({ code := .ok
         data := byte (!s.ports.talk[g].asserted).toNat ++ yesNo s.mix.talk[g].latch ++ yesNo s.mix.talk[g].key },
        s.onMsg fun m => { m with talks := m.talks ++ [(g, on)] }) := by
  unfold talkMessage
  rw [index_of_eq hg, flagValue_of_eq hs]

/-- TALK of a group or a setting that there is not. -/
theorem talkMessage_range {group setting : U8} (h : 4 ≤ group.toNat ∨ 2 ≤ setting.toNat) (s : State) :
    talkMessage group setting s = refuse .range s := by
  unfold talkMessage
  rcases h with h | h
  · rw [index_of_le h]
  · rw [flagValue_of_le h]
    cases index 4 group <;> rfl

/-- The bytes of a TALK's reply (R64). -/
theorem talk_bytes (l : Line) (a b : Bool) :
    byte (!l.asserted).toNat ++ yesNo a ++ yesNo b
      = [if l.taken = some true then 0 else 1] ++ [if a then 1 else 0] ++ [if b then 1 else 0] := by
  have hl : byte (!l.asserted).toNat = [if l.taken = some true then 0 else 1] := by
    by_cases h : l.taken = some true
    · simp [Line.asserted, h, byte]
    · have : (l.taken == some true) = false := by simpa using h
      simp [Line.asserted, h, this, byte]
  rw [hl]
  cases a <;> cases b <;> rfl

/-- Settles O12: the latches of the last TALKs, and the checks of one that comes. -/
theorem talkChecked : Obligations.TalkChecked := by
  refine ⟨fun s => ?_, fun o group setting s hb hh => ?_⟩
  · have ht : runItem .talks s = _ := applyTalks_eq s
    dsimp only
    rw [ht]
    exact ⟨rfl, fun g => ⟨fun h => latched_other h _, fun before on later e h => by rw [e]; exact latched_last h _⟩⟩
  · have hd := not_dropped o (r := .talk group setting) rfl
    refine ⟨fun h => now_refused hb hh hd rfl (talkMessage_range h _), fun g on hg hs => ?_⟩
    rw [← talk_bytes]
    refine now_replied (s.onMsg fun m => { m with talks := m.talks ++ [(g, on)] }) hb hh hd rfl
      ((talkMessage_eq hg hs _).trans ?_) rfl rfl
    cases o <;> rfl

end Sys2Proof.Machine

/-! SUPPORT. The work of the talk groups, the gates and the ducks at a boundary. -/

namespace Sys2Proof.Machine

open Sys2Proof

/-! ### The source that governs a duck (R70) -/

/-- The place of a duck source in the order in which they are chosen: the show-stop, then the groups from the lowest (R70). -/
def DuckSource.rank : DuckSource → Nat
  | .stop => 0
  | .talk g => g.val + 1

/-- The active sources stand in the order in which they are chosen. -/
theorem duckSources_pairwise (s : State) (b : Fin 32) :
    (s.duckSources b).Pairwise fun x y => x.rank < y.rank := by
  have talks : ((List.finRange 4).map DuckSource.talk).Pairwise fun x y => x.rank < y.rank := by decide
  unfold State.duckSources
  rw [List.pairwise_append]
  refine ⟨by split <;> simp, talks.sublist (List.Sublist.map _ List.filter_sublist), fun x hx y hy => ?_⟩
  have hx : x = .stop := by
    split at hx
    · exact List.mem_singleton.mp hx
    · exact absurd hx List.not_mem_nil
  obtain ⟨g, -, rfl⟩ := List.mem_map.mp hy
  subst hx
  exact Nat.succ_pos _

/-- A source of the lowest depth among the active ones. -/
def deepestOf (depth : DuckSource → Nat) (active : List DuckSource) (x : DuckSource) : Prop :=
  x ∈ active ∧ ∀ y ∈ active, depth x ≤ depth y

/-- The sources of the lowest depth, in order. -/
def deepestList (depth : DuckSource → Nat) (active : List DuckSource) : List DuckSource :=
  active.filter fun x => active.all fun y => depth x ≤ depth y

theorem mem_deepestList {depth : DuckSource → Nat} {active : List DuckSource} {x : DuckSource} :
    x ∈ deepestList depth active ↔ deepestOf depth active x := by
  simp [deepestList, deepestOf]

/-- Some active source has the lowest depth. -/
theorem deepestList_ne_nil {depth : DuckSource → Nat} {active : List DuckSource} (h : active ≠ []) :
    deepestList depth active ≠ [] := by
  obtain ⟨x, hx, hmin⟩ := active.toFinset.exists_min_image depth
    (by obtain ⟨y, hy⟩ := List.exists_mem_of_ne_nil _ h; exact ⟨y, List.mem_toFinset.mpr hy⟩)
  exact List.ne_nil_of_mem (mem_deepestList.mpr
    ⟨List.mem_toFinset.mp hx, fun y hy => hmin y (List.mem_toFinset.mpr hy)⟩)

/-- The source that governs: the one that governed, if it is of the deepest, else the deepest that comes before the others (R70). -/
theorem chooseGoverning_spec {depth : DuckSource → Nat} {before : Option DuckSource} {active : List DuckSource} (h : active ≠ [])
    (hp : active.Pairwise fun x y => x.rank < y.rank) :
    ∃ g, chooseGoverning depth before active = some g ∧ deepestOf depth active g
      ∧ (∀ x, before = some x → deepestOf depth active x → g = x)
      ∧ ((∀ x, before = some x → ¬ deepestOf depth active x) → ∀ x, deepestOf depth active x → g = x ∨ g.rank < x.rank) := by
  have front : ∃ g, (deepestList depth active).head? = some g ∧ deepestOf depth active g
      ∧ ∀ x, deepestOf depth active x → g = x ∨ g.rank < x.rank := by
    cases hl : deepestList depth active with
    | nil => exact absurd hl (deepestList_ne_nil h)
    | cons g rest =>
      have hp' : (g :: rest).Pairwise fun x y => x.rank < y.rank := hl ▸ hp.sublist List.filter_sublist
      refine ⟨g, rfl, mem_deepestList.mp (hl ▸ List.mem_cons_self), fun x hx => ?_⟩
      rcases List.mem_cons.mp (hl ▸ mem_deepestList.mpr hx) with e | hr
      · exact .inl e.symm
      · exact .inr (List.rel_of_pairwise_cons hp' hr)
  obtain ⟨g, hg, hd, hfirst⟩ := front
  cases before with
  | none => exact ⟨g, hg, hd, fun x e => absurd e (by simp), fun _ => hfirst⟩
  | some w =>
    by_cases hw : deepestOf depth active w
    · refine ⟨w, ?_, hw, fun x e _ => Option.some.inj e, fun hn => absurd hw (hn w rfl)⟩
      exact if_pos (List.contains_iff_mem.mpr (mem_deepestList.mpr hw))
    · refine ⟨g, ?_, hd, fun x e hx => absurd (Option.some.inj e ▸ hx) hw, fun _ => hfirst⟩
      exact (if_neg fun hc => hw (mem_deepestList.mp (List.contains_iff_mem.mp hc))).trans hg

/-! ### The duck of a bus (R70 to R72, R51) -/

/-- A bus that is not FOLDBACK holds its duck at unity (R51). -/
theorem moveDuck_unity {s : State} {b : Fin 32} (hk : s.mix.buses[b].entry.kind ≠ .foldback) :
    s.moveDuck b = { s.mix.buses[b] with
      duckFrom := Config.unity, duckEnd := Config.unity, governing := none, duckState := .idle } := if_neg hk

/-- The duck of a FOLDBACK bus without an active source goes to unity by the times of the source that governed. -/
theorem moveDuck_released {s : State} {b : Fin 32} (hk : s.mix.buses[b].entry.kind = .foldback) (ha : s.duckSources b = []) :
    s.moveDuck b = { s.mix.buses[b] with
      duckFrom := s.mix.buses[b].duckEnd, duckEnd := (s.moveDuck b).duckEnd, governing := s.mix.buses[b].governing
      duckState := duckStateOf (s.moveDuck b).duckEnd Config.unity false }
    ∧ (s.moveDuck b).duckEnd = (match s.mix.buses[b].governing with
        | some g => duckMove s.mix.buses[b].duckEnd Config.unity (s.duckParams g).depthLin (s.duckParams g).attack
            (s.duckParams g).release
        | none => s.mix.buses[b].duckEnd) := by
  unfold State.moveDuck
  dsimp only
  rw [if_pos hk, ha]
  exact ⟨rfl, rfl⟩

/-- The duck of a FOLDBACK bus goes to the depth of the source that governs. -/
theorem moveDuck_governed {s : State} {b : Fin 32} {g : DuckSource} (hk : s.mix.buses[b].entry.kind = .foldback)
    (ha : s.duckSources b ≠ [])
    (hg : chooseGoverning (fun x => (s.duckParams x).depthLin) s.mix.buses[b].governing (s.duckSources b) = some g) :
    s.moveDuck b = { s.mix.buses[b] with
      duckFrom := s.mix.buses[b].duckEnd, duckEnd := (s.moveDuck b).duckEnd, governing := some g
      duckState := duckStateOf (s.moveDuck b).duckEnd (s.duckParams g).depthLin true }
    ∧ (s.moveDuck b).duckEnd = duckMove s.mix.buses[b].duckEnd (s.duckParams g).depthLin (s.duckParams g).depthLin
        (s.duckParams g).attack (s.duckParams g).release := by
  unfold State.moveDuck
  dsimp only
  rw [if_pos hk]
  cases hs : s.duckSources b with
  | nil => exact absurd hs ha
  | cons x xs =>
    rw [hs] at hg
    dsimp only
    rw [hg]
    exact ⟨rfl, rfl⟩

/-- The duck state by the side of the target on which the end value is (Table 4-3). -/
theorem duckStateOf_eq (e target : Nat) (active : Bool) :
    duckStateOf e target active = if e < target then .releasing else if target < e then .attacking
      else if active then .heldDown else .idle := by
  unfold duckStateOf
  rcases Nat.lt_trichotomy e target with h | h | h
  · rw [if_neg (by omega), if_pos h, if_pos h]
  · subst h; simp
  · rw [if_pos h, if_neg (by omega), if_pos h]

/-- The duck of a bus: at unity on a bus that is not FOLDBACK; on another toward unity without an active source, and else toward the
depth of the source that governs. -/
theorem moveDuck_spec (s : State) (b : Fin 32) :
    (s.mix.buses[b].entry.kind ≠ .foldback → (s.moveDuck b).duckFrom = 4194304 ∧ (s.moveDuck b).duckEnd = 4194304
      ∧ (s.moveDuck b).governing = none ∧ (s.moveDuck b).duckState = .idle)
    ∧ (s.mix.buses[b].entry.kind = .foldback →
      (s.moveDuck b).duckFrom = s.mix.buses[b].duckEnd
      ∧ (s.duckSources b = [] → (s.moveDuck b).governing = s.mix.buses[b].governing
        ∧ (∀ g, s.mix.buses[b].governing = some g → (s.moveDuck b).duckEnd
          = duckMove s.mix.buses[b].duckEnd 4194304 (s.duckParams g).depthLin (s.duckParams g).attack (s.duckParams g).release)
        ∧ (s.mix.buses[b].governing = none → (s.moveDuck b).duckEnd = s.mix.buses[b].duckEnd)
        ∧ (s.moveDuck b).duckState = if (s.moveDuck b).duckEnd < 4194304 then .releasing
          else if 4194304 < (s.moveDuck b).duckEnd then .attacking else .idle)
      ∧ (s.duckSources b ≠ [] → ∃ g, (s.moveDuck b).governing = some g
        ∧ deepestOf (fun x => (s.duckParams x).depthLin) (s.duckSources b) g
        ∧ (∀ x, s.mix.buses[b].governing = some x →
          deepestOf (fun x => (s.duckParams x).depthLin) (s.duckSources b) x → g = x)
        ∧ ((∀ x, s.mix.buses[b].governing = some x → ¬ deepestOf (fun x => (s.duckParams x).depthLin) (s.duckSources b) x) →
          ∀ x, deepestOf (fun x => (s.duckParams x).depthLin) (s.duckSources b) x → g = x ∨ g.rank < x.rank)
        ∧ (s.moveDuck b).duckEnd = duckMove s.mix.buses[b].duckEnd (s.duckParams g).depthLin (s.duckParams g).depthLin
          (s.duckParams g).attack (s.duckParams g).release
        ∧ (s.moveDuck b).duckState = if (s.moveDuck b).duckEnd < (s.duckParams g).depthLin then .releasing
          else if (s.duckParams g).depthLin < (s.moveDuck b).duckEnd then .attacking else .heldDown)) := by
  refine ⟨fun hk => ?_, fun hk => ⟨?_, fun ha => ?_, fun ha => ?_⟩⟩
  · rw [moveDuck_unity hk]; exact ⟨rfl, rfl, rfl, rfl⟩
  · unfold State.moveDuck
    dsimp only
    rw [if_pos hk]
  · obtain ⟨h1, h2⟩ := moveDuck_released hk ha
    generalize s.moveDuck b = w at h1 h2 ⊢
    refine ⟨by rw [h1], fun g hg => ?_, fun hn => ?_, ?_⟩
    · rw [h2, hg]; rfl
    · rw [h2, hn]
    · rw [h1, duckStateOf_eq]; rfl
  · obtain ⟨g, hg, hd, hbefore, hlater⟩ := chooseGoverning_spec (depth := fun x => (s.duckParams x).depthLin)
      (before := s.mix.buses[b].governing) ha (duckSources_pairwise _ _)
    obtain ⟨h1, h2⟩ := moveDuck_governed hk ha hg
    generalize s.moveDuck b = w at h1 h2 ⊢
    refine ⟨g, by rw [h1], hd, hbefore, hlater, h2, ?_⟩
    rw [h1, duckStateOf_eq]
    rfl

/-- The mute's ramp changes nothing but itself (R52, R54). -/
theorem moveMute_eq (r : BusRecord) : r.moveMute = { r with
    muteFrom := if r.entry.kind = .unused then 0 else r.muteEnd
    muteEnd := if r.entry.kind = .unused then 0 else if r.entry.mute then 0 else Config.unity } := by
  unfold BusRecord.moveMute
  split <;> rfl

/-! ### The keys, the gates and the buses of a boundary -/

/-- The state in which the ducks of a boundary move: its keys formed and its gates set. -/
def State.keyed (s : State) : State := s.formKeys.setGates

/-- The key of a group at a boundary: its line or its latch (R66). -/
def State.keyOf (s : State) (g : Fin 4) : Bool := s.ports.talk[g].asserted || s.mix.talk[g].latch

/-- A group with its key formed (R66, R67). -/
theorem keyed_talk (s : State) (g : Fin 4) : s.keyed.mix.talk[g] = { s.mix.talk[g] with
    key := s.keyOf g, live := s.keyOf g && s.talkInputLive s.mix.talk[g].entry.input } := table_at _ g

theorem keyed_key (s : State) (g : Fin 4) : s.keyed.mix.talk[g].key = s.keyOf g := congrArg TalkGroup.key (keyed_talk s g)

theorem keyed_entry (s : State) (g : Fin 4) : s.keyed.mix.talk[g].entry = s.mix.talk[g].entry := by
  rw [keyed_talk]

/-- A talk input that is there lets its group duck in PRIMARY and in SPARE (R67). -/
theorem talkInputLive_iff (s : State) (x : Option (Fin 64)) :
    s.talkInputLive x = true ↔ ∀ i, x = some i → s.inputs[i].state = .primary ∨ s.inputs[i].state = .spare := by
  cases x with
  | none => simp [State.talkInputLive]
  | some i => simp [State.talkInputLive]

/-- The gate target of an input (R39). -/
theorem keyed_input (s : State) (i : Fin 64) : s.keyed.inputs[i] = { s.inputs[i] with
    gateTarget := match s.inputs[i].entry.talkGroup with
      | none => Config.unity
      | some g => if s.keyOf g then Config.unity else 0 } := by
  have h : s.keyed.inputs[i] = { s.inputs[i] with
    gateTarget := match s.inputs[i].entry.talkGroup with
      | none => Config.unity
      | some g => if s.keyed.mix.talk[g].key then Config.unity else 0 } := table_at _ i
  rw [h]
  simp only [keyed_key]

/-- A bus after its duck and its mute have moved. -/
theorem moveBuses_bus (s : State) (b : Fin 32) : s.moveBuses.mix.buses[b] = (s.moveDuck b).moveMute := table_at _ b

/-- Whatever it does, the work of a boundary on a bus changes its duck and its mute alone. -/
theorem moveDuck_rest (s : State) (b : Fin 32) : s.moveDuck b = { s.mix.buses[b] with
    duckFrom := (s.moveDuck b).duckFrom, duckEnd := (s.moveDuck b).duckEnd, governing := (s.moveDuck b).governing
    duckState := (s.moveDuck b).duckState } := by
  unfold State.moveDuck
  dsimp only
  split <;> rfl

/-- The gates, the ducks and the mutes are all that the frame's opening work on the buses changes. -/
theorem keys_eq (s : State) : runItem .keys s = { s with
    inputs := (runItem .keys s).inputs
    mix := { s.mix with talk := (runItem .keys s).mix.talk, buses := (runItem .keys s).mix.buses } } := by
  obtain ⟨talk, h1⟩ : ∃ talk, s.formKeys = { s with mix := { s.mix with talk := talk } } := by
    unfold State.formKeys State.onMix; exact ⟨_, rfl⟩
  obtain ⟨inputs, h2⟩ : ∃ inputs, s.formKeys.setGates = { s.formKeys with inputs := inputs } := by
    unfold State.setGates State.onInputs; exact ⟨_, rfl⟩
  obtain ⟨buses, h3⟩ : ∃ buses, s.formKeys.setGates.moveBuses
      = { s.formKeys.setGates with mix := { s.formKeys.setGates.mix with buses := buses } } := by
    unfold State.moveBuses State.onMix; exact ⟨_, rfl⟩
  have h : runItem .keys s = s.formKeys.setGates.moveBuses := rfl
  rw [h, h3, h2, h1]

/-- Settles O17: the keys and the gates entry by entry, and the duck of a bus by whether a source is active. -/
theorem keysLivenessAndGates : Obligations.KeysLivenessAndGates := by
  intro s
  refine ⟨fun g => ⟨_, keyed_talk s g, ?_⟩, fun i => ?_, fun i => ?_, keys_eq s, fun b => ?_, fun env clocks items => rfl⟩
  · rw [Bool.and_eq_true, talkInputLive_iff]; rfl
  · have h : (runItem .keys s).inputs[i] = _ := keyed_input s i
    rw [h]
    exact ⟨fun hn => by rw [hn]; rfl, fun g hg => by rw [hg]; rfl⟩
  · unfold State.closeFrame
    exact table_at _ i
  · intro r q active depth times deepest
    have hq : q = (s.keyed.moveDuck b).moveMute := moveBuses_bus s.keyed b
    have hrest : s.keyed.moveDuck b = { r with
      duckFrom := (s.keyed.moveDuck b).duckFrom, duckEnd := (s.keyed.moveDuck b).duckEnd
      governing := (s.keyed.moveDuck b).governing, duckState := (s.keyed.moveDuck b).duckState } := moveDuck_rest s.keyed b
    have hactive : ∀ x, active x ↔ x ∈ s.keyed.duckSources b := fun x => by
      rw [mem_duckSources]
      cases x with
      | stop => exact Iff.rfl
      | talk g => dsimp only; rw [keyed_entry]; exact Iff.rfl
    have hparams : ∀ x, s.keyed.duckParams x = { depthLin := depth x, attack := (times x).1, release := (times x).2 } := fun x => by
      cases x with
      | stop => rfl
      | talk g => simp only [State.duckParams, keyed_entry]; rfl
    have hdepth : (fun x => (s.keyed.duckParams x).depthLin) = depth := funext fun x => by rw [hparams]
    have hdeep : ∀ x, deepest x ↔ deepestOf depth (s.keyed.duckSources b) x := fun x =>
      and_congr (hactive x) (forall_congr' fun y => imp_congr_left (hactive y))
    obtain ⟨hother, hfold⟩ := moveDuck_spec s.keyed b
    have hbus : s.keyed.mix.buses[b] = r := rfl
    simp only [hparams] at hfold
    rw [hbus] at hother hfold
    rw [hq, moveMute_eq]
    generalize s.keyed.moveDuck b = w at hother hfold hrest ⊢
    refine ⟨?_, hother, fun hk => ?_, fun hk => ?_, fun hk => ?_⟩
    · rw [hrest]
    · obtain ⟨hfrom, hnone, hsome⟩ := hfold hk
      refine ⟨hfrom, fun hno => hnone (List.eq_nil_iff_forall_not_mem.mpr fun x hx => hno x ((hactive x).mpr hx)),
        fun ⟨x, hx⟩ => ?_⟩
      obtain ⟨g, h1, h2, h3, h4, h5, h6⟩ := hsome (List.ne_nil_of_mem ((hactive x).mp hx))
      simp only [hdeep]
      refine ⟨g, h1, h2, h3, fun hn hs => (h4 hn .stop hs).resolve_right (Nat.not_lt_zero _), fun hn hs => ?_, h5, h6⟩
      cases g with
      | stop => exact absurd h2 hs
      | talk n =>
        refine ⟨n, rfl, fun m hm hdm => ?_⟩
        rcases h4 hn (.talk m) hdm with e | hlt
        · exact absurd (DuckSource.talk.inj e) (Fin.ne_of_gt hm)
        · exact absurd hm (Nat.not_lt.mpr (Nat.le_of_lt (Nat.lt_of_succ_lt_succ hlt)))
    · have hk' : w.entry.kind = .unused := by rw [hrest]; exact hk
      rw [if_pos hk', if_pos hk']; exact ⟨rfl, rfl⟩
    · have hk' : ¬ w.entry.kind = .unused := by rw [hrest]; exact hk
      rw [if_neg hk', if_neg hk', hrest]; exact ⟨rfl, rfl⟩

end Sys2Proof.Machine

/-! SUPPORT. The local outputs, the zones, and what the end of a frame leaves in the meters and the flags. -/

namespace Sys2Proof.Machine

open Sys2Proof

/-! ### Outputs and zones (R15, R56, R58) -/

/-- A local output plays the previous frame's output of the source its entry names. -/
theorem driveOutputs_out (s : State) (n : Fin 24) (o : Fin 40) (h : o.val = n.val) :
    s.driveOutputs.ports.localOut[n] = s.mix.sourceOut s.mix.outputs[o].source := by
  have e : s.mix.outputs[o] = s.mix.outputs[n.val] := by simp only [Fin.getElem_fin, h]
  rw [e]
  exact table_at _ n

/-- The mix of a frame that is closed, bus by bus. -/
theorem closeFrame_busOut (s : State) (b : Fin 32) :
    s.closeFrame.mix.busOut[b] = (s.busFrame (signalsOf (s.inputFrames s.sources)) b).out := by
  unfold State.closeFrame
  dsimp only
  rw [table_at, State.busFrames, table_at]

/-- The mix of a frame that is closed, zone by zone. -/
theorem closeFrame_zoneOut (s : State) (z : Fin 16) : s.closeFrame.mix.zoneOut[z]
    = s.zoneFrame s.sources (signalsOf (s.inputFrames s.sources)) (s.busFrames (signalsOf (s.inputFrames s.sources))) z := by
  unfold State.closeFrame
  dsimp only
  rw [table_at]

/-- The gain that a limiter holds for the next frame (R13). -/
theorem closeFrame_limiterGain (s : State) (b : Fin 32) :
    s.closeFrame.mix.buses[b].limiterGain = (s.busFrame (signalsOf (s.inputFrames s.sources)) b).gain := by
  unfold State.closeFrame
  dsimp only
  rw [table_at, State.busFrames, table_at]

/-- The programme of a zone: the output of its bus, when that is a RELAY bus (R15). -/
theorem zoneFrame_at (s : State) (a : Sources) (signals : Vector Block 64) (z : Fin 16) (n : Fin 48) :
    (s.zoneFrame a signals (s.busFrames signals) z)[n] = saturate (roundQ
      ((roundQ ((match s.relay.zones[z].entry.programme with
          | some b => if s.mix.buses[b].entry.kind = .relay then (s.busFrame signals b).out[n] else 0
          | none => 0) * ramp s.relay.zones[z].duckFrom s.relay.zones[z].duckEnd n.val)
        + roundQ ((s.callFeed a signals z)[n] * lin s.relay.zones[z].entry.callLevel)) * s.liveGain (.zoneLevel z) n.val)) := by
  have hs : silence[n] = 0 := replicate_at _ n
  unfold State.zoneFrame
  dsimp only
  rw [table_at]
  cases s.relay.zones[z].entry.programme with
  | none => dsimp only; rw [hs]
  | some b =>
    dsimp only
    split
    · rw [State.busFrames, table_at]
    · rw [hs]

/-- The call audio of a zone with neither a call nor a cut (R134). -/
theorem callFeed_silent {s : State} {a : Sources} {signals : Vector Block 64} {z : Fin 16} (hc : s.relay.zones[z].call = none)
    (ht : s.relay.zones[z].tail = none) : s.callFeed a signals z = silence := by
  unfold State.callFeed
  dsimp only
  rw [hc, ht]
  rfl

/-- The call audio of a zone in which a clip call is SPEAKING (R134). -/
theorem callFeed_clip {s : State} {a : Sources} {signals : Vector Block 64} {z : Fin 16} {c : Call} {k : Nat} {v : Fin 8}
    (hc : s.relay.zones[z].call.bind s.callOf = some c) (hs : c.state = .onAir true) (hk : c.source = .clip k)
    (hv : c.voice = some v) : s.callFeed a signals z = a.voice[v] := by
  unfold State.callFeed
  dsimp only
  rw [hc]
  simp [hs, hk, hv]

/-- The call audio of a zone in which a live call is SPEAKING (R134). -/
theorem callFeed_input {s : State} {a : Sources} {signals : Vector Block 64} {z : Fin 16} {c : Call} {i : Fin 64}
    (hc : s.relay.zones[z].call.bind s.callOf = some c) (hs : c.state = .onAir true) (hi : c.source = .input i) :
    s.callFeed a signals z = signals[i] := by
  unfold State.callFeed
  dsimp only
  rw [hc]
  simp [hs, hi]

/-! ### The input stage (R5 to R8, R40, R42) -/

/-- The samples of an input before its trim. -/
def InputRecord.raw (valid : Src → Bool) (a : Sources) (r : InputRecord) (n : Fin 48) : Int :=
  if r.outgoing = none then (sourceBlock valid a r.carried)[n]
  else crossfadeSum (sourceBlock valid a (r.outgoing.getD none))[n] (sourceBlock valid a r.carried)[n] n.val

/-- The samples of an input after its trim, before they are saturated. -/
def InputRecord.trimmed (valid : Src → Bool) (a : Sources) (r : InputRecord) (n : Fin 48) : Int :=
  roundQ (saturate (r.raw valid a n) * lin r.entry.trim)

/-- The peak of an input's frame is the largest of its samples after trim. -/
theorem frame_peak (valid : Src → Bool) (a : Sources) (r : InputRecord) :
    (r.frame valid a).peak = peak (table fun n => saturate (r.trimmed valid a n)) := by
  unfold InputRecord.frame
  dsimp only
  cases h : r.outgoing <;> simp [InputRecord.trimmed, InputRecord.raw, h]

/-- The clip test of an input's frame (R8). -/
theorem frame_clipped (valid : Src → Bool) (a : Sources) (r : InputRecord) : (r.frame valid a).clipped = true ↔
    ∃ n : Fin 48, atRail (sourceBlock valid a r.carried)[n] = true
      ∨ atRail (sourceBlock valid a (r.outgoing.getD none))[n] = true
      ∨ overflows (r.raw valid a n) = true ∨ overflows (r.trimmed valid a n) = true := by
  unfold InputRecord.frame
  dsimp only
  simp only [Bool.or_eq_true, any_block, table_at, exists_or, or_assoc]
  cases h : r.outgoing <;> simp [InputRecord.trimmed, InputRecord.raw, h]

/-- An input after its frame has been metered. -/
theorem meterInputs_input (s : State) (i : Fin 64) : s.meterInputs.inputs[i]
    = s.inputs[i].metered (s.inputs[i].frame s.sourceValid s.sources) := by
  have hp : ∀ (ps : List Post) (t : State), (t.postAll ps).inputs = t.inputs :=
    fun ps t => foldl_keeps State.inputs State.post (fun _ _ => rfl) ps t
  unfold State.meterInputs
  dsimp only
  rw [hp, State.onInputs_inputs, table_at, State.inputFrames, table_at]

/-! ### The buses (R9 to R14, R59, R60, R77) -/

/-- The samples of a bus before its limiter or its saturation. -/
def State.busLevel (s : State) (signals : Vector Block 64) (b : Fin 32) (n : Fin 48) : Int := roundQ (
  roundQ ((List.finRange 64).map fun i => signals[i][n] * (s.liveGain (.crosspoint i b) n.val : Int)).sum
    * combinedGain (s.liveGain (.busGain b) n.val) (ramp s.mix.buses[b].duckFrom s.mix.buses[b].duckEnd n.val)
      (ramp s.mix.buses[b].muteFrom s.mix.buses[b].muteEnd n.val))

/-- The frame of an UNUSED bus is silent (R51). -/
theorem busFrame_unused {s : State} {b : Fin 32} (h : s.mix.buses[b].entry.kind = .unused) (signals : Vector Block 64) :
    s.busFrame signals b
      = { out := silence, required := Config.unity, gain := s.mix.buses[b].limiterGain, clipped := false } := if_pos h

/-- The samples that the frame of a bus is made of. -/
theorem busLevel_table (s : State) (signals : Vector Block 64) (b : Fin 32) :
    (table fun n : Fin 48 => roundQ (roundQ (busAcc signals
        (table fun i => (s.fadeOf (.crosspoint i b), lin s.mix.crosspoints[i][b])) s.cue.held n)
      * combinedGain (s.liveGain (.busGain b) n.val) (ramp s.mix.buses[b].duckFrom s.mix.buses[b].duckEnd n.val)
        (ramp s.mix.buses[b].muteFrom s.mix.buses[b].muteEnd n.val))) = table (s.busLevel signals b) :=
  congrArg table (funext fun n => by rw [busAcc_sum]; rfl)

/-- A bus without a limiter is saturated. -/
theorem busFrame_plain {s : State} {b : Fin 32} (hu : s.mix.buses[b].entry.kind ≠ .unused)
    (hl : ¬ (s.mix.buses[b].entry.kind = .foldback ∧ s.mix.buses[b].entry.limiter = true)) (signals : Vector Block 64) :
    s.busFrame signals b = { out := table fun n => saturate (s.busLevel signals b n), required := Config.unity
                             gain := Config.unity, clipped := (table (s.busLevel signals b)).toList.any overflows } := by
  unfold State.busFrame
  dsimp only
  rw [if_neg hu, if_neg hl, busLevel_table]
  simp only [table_at]

/-- A limited bus: the gain it takes, and its samples at that gain (R13, R14). -/
theorem busFrame_limited {s : State} {b : Fin 32}
    (hl : s.mix.buses[b].entry.kind = .foldback ∧ s.mix.buses[b].entry.limiter = true) (signals : Vector Block 64) :
    (s.busFrame signals b).required
        = requiredGain (limiterThreshold s.mix.buses[b].entry.threshold) (peak (table (s.busLevel signals b)))
      ∧ (s.busFrame signals b).gain
        = limiterGain (s.busFrame signals b).required s.mix.buses[b].limiterGain s.mix.buses[b].entry.release
      ∧ (∀ n : Fin 48, (s.busFrame signals b).out[n] = limitedSample (s.busLevel signals b n) (s.busFrame signals b).gain)
      ∧ ((s.busFrame signals b).clipped = true
        ↔ ∃ n : Fin 48, overflows (roundQ (s.busLevel signals b n * (s.busFrame signals b).gain)) = true) := by
  have hu : s.mix.buses[b].entry.kind ≠ .unused := by rw [hl.1]; decide
  unfold State.busFrame
  dsimp only
  rw [if_neg hu, if_pos hl, busLevel_table]
  simp only [table_at, any_block]
  exact ⟨trivial, trivial, fun _ => trivial, trivial⟩

/-- The required gain is below unity when the peak is above the threshold (R13). -/
theorem requiredGain_lt {t p : Nat} : requiredGain t p < Config.unity ↔ t < p := by
  unfold requiredGain
  split
  · next h => exact iff_of_false (Nat.lt_irrefl _) (Nat.not_lt.mpr h)
  · next h =>
    have hp : t < p := Nat.not_le.mp h
    refine iff_of_true (Nat.div_lt_of_lt_mul ?_) hp
    exact Nat.mul_lt_mul_of_pos_right hp (by decide)

/-- A bus after its frame has been metered. -/
theorem meterBuses_bus (s : State) (b : Fin 32) : s.meterBuses.mix.buses[b]
    = s.mix.buses[b].metered (s.busFrame (signalsOf (s.inputFrames s.sources)) b) := by
  have hp : ∀ (ps : List Post) (t : State), (t.postAll ps).mix = t.mix :=
    fun ps t => foldl_keeps State.mix State.post (fun _ _ => rfl) ps t
  unfold State.meterBuses
  dsimp only
  rw [hp, State.onMix_mix, table_at, State.busFrames, table_at]

/-! ### The posts of a frame's end -/

/-- The posts of the inputs: one for each flag that becomes SET (R40). -/
theorem mem_clipPosts (s : State) (frames : Vector InputFrame 64) (p : Post) : p ∈ clipPosts s frames ↔
    ∃ i : Fin 64, p = inputClipPost i ∧ s.inputs[i].clip = false ∧ (s.inputs[i].clip || frames[i].clipped) = true := by
  simp only [clipPosts, List.mem_filterMap, List.mem_finRange, true_and]
  refine exists_congr fun i => ?_
  cases hc : s.inputs[i].clip <;> cases hf : frames[i].clipped <;> simp [eq_comm]

theorem clipPosts_nodup (s : State) (frames : Vector InputFrame 64) : (clipPosts s frames).Nodup := by
  refine List.Nodup.filterMap (fun i j p hi hj => ?_) (List.nodup_finRange 64)
  have post_of : ∀ k, p ∈ (if frames[k].clipped && !s.inputs[k].clip then some (inputClipPost k) else none) →
      p.subject = .input k := fun k h => by
    split at h
    · rw [← Option.some.inj h]; rfl
    · cases h
  exact Subject.input.inj ((post_of i hi).symm.trans (post_of j hj))

/-- The posts of one bus at the end of a frame. -/
def postsOfBus (r : BusRecord) (f : BusFrame) (b : Fin 32) : List Post :=
  (if f.required < Config.unity ∧ r.limiting = false then [limitingPost b (inv f.required)] else [])
    ++ (if f.clipped && !r.clip then [busClipPost b] else [])

theorem busPosts_eq (s : State) (frames : Vector BusFrame 32) :
    busPosts s frames = (List.finRange 32).flatMap fun b => postsOfBus s.mix.buses[b] frames[b] b := rfl

/-- LIMITING for a limiting flag that becomes SET, BUS_CLIP for a clip flag that does (R59, R77). -/
theorem mem_postsOfBus (r : BusRecord) (f : BusFrame) (b : Fin 32) (p : Post) : p ∈ postsOfBus r f b ↔
    (p = limitingPost b (inv f.required) ∧ r.limiting = false ∧ (r.metered f).limiting = true)
      ∨ (p = busClipPost b ∧ r.clip = false ∧ (r.metered f).clip = true) := by
  unfold postsOfBus BusRecord.metered
  rw [List.mem_append]
  refine or_congr ?_ ?_
  · cases hl : r.limiting <;> by_cases hq : f.required < Config.unity <;> simp [hq]
  · cases hc : r.clip <;> cases hf : f.clipped <;> simp

/-- The posts of one bus are of that bus. -/
theorem subject_of_mem_postsOfBus {r : BusRecord} {f : BusFrame} {b : Fin 32} {p : Post} (h : p ∈ postsOfBus r f b) :
    p.subject = .bus b := by
  rcases (mem_postsOfBus r f b p).mp h with ⟨rfl, -⟩ | ⟨rfl, -⟩ <;> rfl

theorem postsOfBus_nodup (r : BusRecord) (f : BusFrame) (b : Fin 32) : (postsOfBus r f b).Nodup := by
  unfold postsOfBus
  split <;> split <;> simp [limitingPost, busClipPost]

theorem busPosts_nodup (s : State) (frames : Vector BusFrame 32) : (busPosts s frames).Nodup := by
  rw [busPosts_eq, List.nodup_flatMap]
  refine ⟨fun b _ => postsOfBus_nodup _ _ b, (List.nodup_finRange 32).imp fun {b d} hne => ?_⟩
  refine List.disjoint_left.mpr fun p hb hd => hne (Subject.bus.inj ?_)
  exact (subject_of_mem_postsOfBus hb).symm.trans (subject_of_mem_postsOfBus hd)

theorem inputMeters_eq (s : State) : runItem .inputMeters s = s.meterInputs := rfl

theorem busMeters_eq (s : State) : runItem .busMeters s = s.meterBuses := rfl

/-- The posts of the inputs follow the change of the inputs, and nothing else is done. -/
theorem meterInputs_posts (s : State) :
    s.meterInputs = State.postAll { s with inputs := s.meterInputs.inputs } (clipPosts s (s.inputFrames s.sources)) := by
  obtain ⟨inputs, h⟩ : ∃ inputs, s.meterInputs = State.postAll { s with inputs := inputs } (clipPosts s (s.inputFrames s.sources)) := by
    unfold State.meterInputs State.onInputs; exact ⟨_, rfl⟩
  have hp : ∀ (ps : List Post) (t : State), (t.postAll ps).inputs = t.inputs :=
    fun ps t => foldl_keeps State.inputs State.post (fun _ _ => rfl) ps t
  have hi : s.meterInputs.inputs = inputs := by rw [h, hp]
  rw [hi, h]

/-- The posts of the buses follow the change of the buses, and nothing else is done. -/
theorem meterBuses_posts (s : State) : s.meterBuses
    = State.postAll { s with mix := { s.mix with buses := s.meterBuses.mix.buses } }
        (busPosts s (s.busFrames (signalsOf (s.inputFrames s.sources)))) := by
  obtain ⟨buses, h⟩ : ∃ buses, s.meterBuses = State.postAll { s with mix := { s.mix with buses := buses } }
      (busPosts s (s.busFrames (signalsOf (s.inputFrames s.sources)))) := by
    unfold State.meterBuses State.onMix; exact ⟨_, rfl⟩
  have hp : ∀ (ps : List Post) (t : State), (t.postAll ps).mix = t.mix :=
    fun ps t => foldl_keeps State.mix State.post (fun _ _ => rfl) ps t
  have hi : s.meterBuses.mix.buses = buses := by rw [h, hp]
  rw [hi, h]

/-- What the frame of a bus leaves in its meter and its flags. -/
theorem metered_spec (s : State) (signals : Vector Block 64) (b : Fin 32) :
    let r := s.mix.buses[b]
    let f := s.busFrame signals b
    let q := r.metered f
    let level := s.busLevel signals b
    let limits := r.entry.kind = .foldback ∧ r.entry.limiter = true
    q = { r with limitedNow := q.limitedNow, limiting := r.limiting || q.limitedNow, clip := q.clip, meter := q.meter }
    ∧ f.out = f.out
    ∧ r.meter ≤ q.meter ∧ (∀ n : Fin 48, f.out[n].natAbs ≤ q.meter)
    ∧ (q.meter = r.meter ∨ ∃ n : Fin 48, q.meter = f.out[n].natAbs)
    ∧ (r.entry.kind = .unused → f.out = silence ∧ q.limitedNow = false ∧ q.clip = r.clip)
    ∧ (r.entry.kind ≠ .unused → ¬ limits → (∀ n : Fin 48, f.out[n] = saturate (level n)) ∧ q.limitedNow = false
      ∧ (q.clip = true ↔ r.clip = true ∨ ∃ n, overflows (level n) = true))
    ∧ (limits → ∃ peak gain, (∀ n, (level n).natAbs ≤ peak) ∧ (∃ n, (level n).natAbs = peak)
      ∧ f.required = requiredGain (limiterThreshold r.entry.threshold) peak
      ∧ gain = limiterGain f.required r.limiterGain r.entry.release ∧ f.gain = gain
      ∧ (∀ n : Fin 48, f.out[n] = limitedSample (level n) gain)
      ∧ (q.limitedNow = true ↔ limiterThreshold r.entry.threshold < peak)
      ∧ (q.clip = true ↔ r.clip = true ∨ ∃ n, overflows (roundQ (level n * gain)) = true)) := by
  intro r f q level limits
  obtain ⟨h1, h2, h3⟩ := max_peak_spec r.meter f.out
  refine ⟨rfl, rfl, h1, h2, h3, fun hk => ?_, fun hk hl => ?_, fun hl => ?_⟩
  · have hf := busFrame_unused hk signals
    have hc : q.clip = (r.clip || f.clipped) := rfl
    have hn : q.limitedNow = decide (f.required < Config.unity) := rfl
    rw [hc, hn, show f.clipped = false from congrArg BusFrame.clipped hf,
      show f.required = Config.unity from congrArg BusFrame.required hf]
    exact ⟨congrArg BusFrame.out hf, decide_eq_false (Nat.lt_irrefl _), Bool.or_false _⟩
  · have hf := busFrame_plain hk hl signals
    have hc : q.clip = (r.clip || f.clipped) := rfl
    have hn : q.limitedNow = decide (f.required < Config.unity) := rfl
    rw [hc, hn, show f.clipped = _ from congrArg BusFrame.clipped hf,
      show f.required = Config.unity from congrArg BusFrame.required hf, Bool.or_eq_true, any_block]
    simp only [table_at]
    refine ⟨fun n => ?_, decide_eq_false (Nat.lt_irrefl _), Iff.rfl⟩
    rw [show f.out = _ from congrArg BusFrame.out hf, table_at]
  · obtain ⟨l1, l2, l3, l4⟩ := busFrame_limited hl signals
    have hc : q.clip = (r.clip || f.clipped) := rfl
    have hn : q.limitedNow = decide (f.required < Config.unity) := rfl
    obtain ⟨p1, p2⟩ := peak_spec (table level)
    simp only [table_at] at p1 p2
    refine ⟨peak (table level), f.gain, p1, p2, l1, l2, rfl, l3, ?_, ?_⟩
    · rw [hn, l1, decide_eq_true_iff]; exact requiredGain_lt
    · rw [hc, Bool.or_eq_true]; exact or_congr_right l4

/-- Settles O18: the outputs and the zones sample by sample, and the meters and the flags by what kind of bus it is. -/
theorem outputsAndZones : Obligations.OutputsAndZones := by
  refine ⟨fun s => ⟨s.driveOutputs.ports.localOut, rfl, fun n o h => ?_⟩, fun s z => ⟨fun n => ?_, callFeed_silent,
    fun c k v hc hs hk hv => ?_, fun c i => callFeed_input⟩, fun s => ⟨fun i => ?_, ?_, fun b => ?_, ?_⟩⟩
  · rw [driveOutputs_out s n o h]
    cases s.mix.outputs[o].source <;> rfl
  · rw [closeFrame_zoneOut, zoneFrame_at]
    cases s.relay.zones[z].entry.programme with
    | none => rfl
    | some b => dsimp only; rw [closeFrame_busOut]
  · rw [callFeed_clip hc hs hk hv]
    exact table_at _ v
  · obtain ⟨h1, h2, h3⟩ := max_peak_spec s.inputs[i].meter
      (table fun n => saturate (s.inputs[i].trimmed s.sourceValid s.sources n))
    simp only [table_at] at h2 h3
    refine ⟨_, _, (meterInputs_input s i), ?_, ?_⟩
    · rw [Bool.or_eq_true, frame_clipped]; rfl
    · rw [frame_peak]; exact ⟨h1, h2, h3⟩
  · refine ⟨clipPosts s (s.inputFrames s.sources), ?_, clipPosts_nodup s _, fun p => ?_⟩
    · rw [inputMeters_eq]
      exact meterInputs_posts s
    · rw [mem_clipPosts]
      refine exists_congr fun i => and_congr_right fun _ => and_congr_right fun _ => ?_
      rw [inputMeters_eq, meterInputs_input, State.inputFrames, table_at]
      rfl
  · dsimp only
    rw [busMeters_eq, meterBuses_bus, closeFrame_busOut, closeFrame_limiterGain]
    exact metered_spec s _ b
  · refine ⟨busPosts s (s.busFrames (signalsOf (s.inputFrames s.sources))), ?_, busPosts_nodup s _, fun p => ?_⟩
    · dsimp only
      rw [busMeters_eq]
      exact meterBuses_posts s
    · rw [busPosts_eq, List.mem_flatMap]
      simp only [List.mem_finRange, true_and]
      refine exists_congr fun b => ?_
      rw [busMeters_eq, meterBuses_bus, mem_postsOfBus, State.busFrames, table_at]
      rfl

end Sys2Proof.Machine

/-! SUPPORT. TABLE WRITE of every table: what refuses one, and where its entries go. -/

namespace Sys2Proof.Machine

open Sys2Proof

/-! ### The checks of a list of entries -/

/-- One refused entry refuses the list. -/
theorem allSome_none {α : Type} {l : List (Option α)} (h : none ∈ l) : allSome l = none := by
  induction l with
  | nil => exact absurd h List.not_mem_nil
  | cons x xs ih =>
    cases x with
    | none => rfl
    | some x => simp [allSome, ih (by simpa using h)]

/-- The entries of a list that passes are those it holds. -/
theorem mem_of_allSome {α : Type} {l : List (Option α)} {xs : List α} (h : allSome l = some xs) {x : α} (hx : x ∈ xs) :
    some x ∈ l := by
  induction l generalizing xs with
  | nil => cases h; exact absurd hx List.not_mem_nil
  | cons y ys ih =>
    cases y with
    | none => cases h
    | some y =>
      simp only [allSome, Option.map_eq_some_iff] at h
      obtain ⟨zs, hz, rfl⟩ := h
      rcases List.mem_cons.mp hx with rfl | hx
      · exact List.mem_cons_self
      · exact List.mem_cons_of_mem _ (ih hz hx)

/-- An entry that its owner refuses refuses the list. -/
theorem allSome_map_none {α β γ : Type} {l : List α} {f : α → Option β} {g : α → β → γ}
    (h : (l.any fun x => (f x).isNone) = true) : allSome (l.map fun x => (f x).map (g x)) = none := by
  obtain ⟨x, hx, hn⟩ := List.any_eq_true.mp h
  refine allSome_none (List.mem_map.mpr ⟨x, hx, ?_⟩)
  rw [Option.isNone_iff_eq_none.mp hn]
  rfl

/-- A write of another table claims no slot (R55). -/
theorem slotClash_of_others {s : State} {taken : List TableEntry} (h : ∀ e ∈ taken, e.isOutput = false) :
    s.slotClash taken = false := by
  have : taken.any TableEntry.isOutput = false := List.any_eq_false.mpr fun e he => by rw [h e he]; decide
  simp [State.slotClash, this]

/-- The checked entries of another table claim no slot. -/
theorem slotClash_of_checked {α β : Type} {s : State} {l : List α} {f : α → Option β} {g : α → β → TableEntry}
    {taken : List TableEntry} (h : allSome (l.map fun x => (f x).map (g x)) = some taken)
    (hg : ∀ x y, (g x y).isOutput = false) : s.slotClash taken = false := by
  refine slotClash_of_others fun e he => ?_
  obtain ⟨x, -, hx⟩ := List.mem_map.mp (mem_of_allSome h he)
  obtain ⟨y, -, rfl⟩ := Option.map_eq_some_iff.mp hx
  exact hg x y

/-! ### A write (R178, R182) -/

/-- A write refused for its index or for an entry of it. -/
theorem writeTable_range {α : Type} {n : Nat} {first : U8} {es : List α} {check : Fin n → α → Option TableEntry}
    {prior : State → Fin n → List U8} (h : n ≤ first.toNat
      ∨ allSome ((placed n first.toNat es).map fun x => check x.1 x.2) = none) (s : State) :
    writeTable n first es check prior s = refuse .range s := by
  unfold writeTable
  split
  · rfl
  · next hn => dsimp only; rw [h.resolve_left hn]

/-- A write refused for its index or for an entry that its owner's check refuses. -/
theorem writeTable_refused {α β : Type} {n : Nat} {first : U8} {es : List α} (f : Fin n → α → Option β)
    (g : Fin n → β → TableEntry) {prior : State → Fin n → List U8}
    (h : n ≤ first.toNat ∨ ((placed n first.toNat es).any fun x => (f x.1 x.2).isNone) = true) (s : State) :
    writeTable n first es (fun i r => (f i r).map (g i)) prior s = refuse .range s :=
  writeTable_range (h.imp_right fun hx => allSome_map_none (f := fun x : Fin n × α => f x.1 x.2) (g := fun x => g x.1) hx) s

/-- A write whose entries all pass their checks. -/
theorem writeTable_checked {α : Type} {n : Nat} {first : U8} {es : List α} {check : Fin n → α → Option TableEntry}
    {prior : State → Fin n → List U8} {taken : List TableEntry} (hn : first.toNat < n)
    (h : allSome ((placed n first.toNat es).map fun x => check x.1 x.2) = some taken) (s : State) :
    writeTable n first es check prior s = acceptEntries taken ((placed n first.toNat es).map fun x => prior s x.1) s := by
  unfold writeTable
  rw [if_neg (Nat.not_le.mpr hn)]
  dsimp only
  rw [h]

/-- The slots claimed do not depend on the place a message has taken. -/
theorem slotClash_placed (s : State) (o : Origin) (taken : List TableEntry) :
    (s.onMsg fun m => m.placed o).slotClash taken = s.slotClash taken := by cases o <;> rfl

/-- A checked write: its owner takes these entries, with these prior values in the reply, and none claims a slot claimed already. -/
def State.takesEntries (s : State) (o : Origin) (r : Request) (taken : List TableEntry) (priors : List (List U8)) : Prop :=
  settling r = .now ∧ readOnly r = false ∧ s.slotClash taken = false
    ∧ settleNow o r (s.onMsg fun m => m.placed o) = acceptEntries taken priors (s.onMsg fun m => m.placed o)

/-- A checked write with no hold open is accepted. -/
theorem write_accepted {s : State} {o : Origin} {r : Request} {taken : List TableEntry} {priors : List (List U8)}
    (hb : s.between) (hh : s.hears o) (hopen : s.msg.holdOpen = false) (ht : s.takesEntries o r taken priors) :
    (s.awake fun s => s.messageNow o r) = .next ((s.onMsg fun m => { m with
      accepted := m.accepted ++ taken.map (.write false) }).replied o
        { code := .ok, data := bytes2 taken.length ++ priors.flatten }) := by
  obtain ⟨hs, hr, hclash, hset⟩ := ht
  refine now_replied (s.onMsg fun m => { m with accepted := m.accepted ++ taken.map (.write false) }) hb hh (not_dropped o hr) hs
    (hset.trans ?_) rfl rfl
  have hopen' : (s.onMsg fun m => m.placed o).msg.holdOpen = false := by cases o <;> exact hopen
  simp only [acceptEntries, slotClash_placed, hclash, hopen', Bool.false_eq_true, if_false]
  cases o <;> rfl

/-- A checked write under a hold is staged when the store has room. -/
theorem write_staged {s : State} {o : Origin} {r : Request} {taken : List TableEntry} {priors : List (List U8)}
    (hb : s.between) (hh : s.hears o) (hopen : s.msg.holdOpen = true) (ht : s.takesEntries o r taken priors)
    (hroom : s.msg.staged.length + placesNeeded s.msg.staged taken ≤ 256) :
    (s.awake fun s => s.messageNow o r) = .next ((s.onMsg fun m => { m with staged := taken.foldl stage m.staged }).replied o
      { code := .ok, data := bytes2 taken.length ++ priors.flatten }) := by
  obtain ⟨hs, hr, hclash, hset⟩ := ht
  refine now_replied (s.onMsg fun m => { m with staged := taken.foldl stage m.staged }) hb hh (not_dropped o hr) hs
    (hset.trans ?_) rfl rfl
  have hopen' : (s.onMsg fun m => m.placed o).msg.holdOpen = true := by cases o <;> exact hopen
  have hstaged : (s.onMsg fun m => m.placed o).msg.staged = s.msg.staged := by cases o <;> rfl
  have hroom' : ¬ Config.maxStaged < s.msg.staged.length + placesNeeded s.msg.staged taken := Nat.not_lt.mpr hroom
  simp only [acceptEntries, slotClash_placed, hclash, hopen', hstaged, hroom', Bool.false_eq_true, if_false, if_true]
  cases o <;> rfl

/-- A checked write under a hold is refused whole when the store has no room. -/
theorem write_stageFull {s : State} {o : Origin} {r : Request} {taken : List TableEntry} {priors : List (List U8)}
    (hb : s.between) (hh : s.hears o) (hopen : s.msg.holdOpen = true) (ht : s.takesEntries o r taken priors)
    (hroom : 256 < s.msg.staged.length + placesNeeded s.msg.staged taken) :
    (s.awake fun s => s.messageNow o r) = .next (s.replied o { code := .stageFull }) := by
  obtain ⟨hs, hr, hclash, hset⟩ := ht
  refine now_refused hb hh (not_dropped o hr) hs (hset.trans ?_)
  have hopen' : (s.onMsg fun m => m.placed o).msg.holdOpen = true := by cases o <;> exact hopen
  have hstaged : (s.onMsg fun m => m.placed o).msg.staged = s.msg.staged := by cases o <;> rfl
  have hroom' : Config.maxStaged < s.msg.staged.length + placesNeeded s.msg.staged taken := hroom
  simp only [acceptEntries, slotClash_placed, hclash, hopen', hstaged, hroom', Bool.false_eq_true, if_false, if_true]

/-! ### The eight tables -/

section
variable {s : State} {o : Origin}

theorem takesEntries_input {first : U8} {es : List RawInput} {taken : List TableEntry} (hn : first.toNat < 64)
    (h : allSome ((placed 64 first.toNat es).map fun x => (checkInput x.2).map (.input x.1)) = some taken) :
    s.takesEntries o (.writeInput first es) taken ((placed 64 first.toNat es).map fun x => s.inputs[x.1].entry.bytes) := by
  refine ⟨rfl, rfl, slotClash_of_checked h fun _ _ => rfl, ?_⟩
  show writeInput first es _ = _
  unfold writeInput
  rw [writeTable_checked hn]
  · rfl
  · exact h

theorem takesEntries_crosspoint {window : RawWindow} {codes : List U16} {cells : List (Fin 64 × Fin 32)}
    (h : checkWindow window = some cells) :
    s.takesEntries o (.writeCrosspoint window codes)
      ((cells.zip codes).map fun x => .crosspoint x.1.1 x.1.2 (clampCode x.2.toNat))
      ((cells.zip codes).map fun x => bytes2 (s.carriedCode (.crosspoint x.1.1 x.1.2)).val) := by
  refine ⟨rfl, rfl, slotClash_of_others fun e he => ?_, ?_⟩
  · obtain ⟨x, -, rfl⟩ := List.mem_map.mp he
    rfl
  · show writeCrosspoint window codes (s.onMsg fun m => m.placed o) = _
    unfold writeCrosspoint
    rw [h]
    rfl

theorem takesEntries_bus {first : U8} {es : List RawBus} {taken : List TableEntry} (hn : first.toNat < 32)
    (h : allSome ((placed 32 first.toNat es).map fun x => (checkBus x.2).map (.bus x.1)) = some taken) :
    s.takesEntries o (.writeBus first es) taken
      ((placed 32 first.toNat es).map fun x => s.mix.buses[x.1].entry.bytes (s.carriedCode (.busGain x.1))) := by
  refine ⟨rfl, rfl, slotClash_of_checked h fun _ _ => rfl, ?_⟩
  show writeBus first es _ = _
  unfold writeBus
  rw [writeTable_checked hn]
  · rfl
  · exact h

theorem takesEntries_output {first : U8} {es : List RawOutput} {taken : List TableEntry} (hn : first.toNat < 40)
    (h : allSome ((placed 40 first.toNat es).map fun x => (checkOutput x.1 x.2).map (.output x.1)) = some taken)
    (hclash : s.slotClash taken = false) :
    s.takesEntries o (.writeOutput first es) taken ((placed 40 first.toNat es).map fun x => s.mix.outputs[x.1].bytes) := by
  refine ⟨rfl, rfl, hclash, ?_⟩
  show writeOutput first es _ = _
  unfold writeOutput
  rw [writeTable_checked hn]
  · rfl
  · exact h

theorem takesEntries_zone {first : U8} {es : List RawZone} {taken : List TableEntry} (hn : first.toNat < 16)
    (h : allSome ((placed 16 first.toNat es).map fun x => (checkZone x.2).map (.zone x.1)) = some taken) :
    s.takesEntries o (.writeZone first es) taken
      ((placed 16 first.toNat es).map fun x => s.relay.zones[x.1].entry.bytes (s.carriedCode (.zoneLevel x.1))) := by
  refine ⟨rfl, rfl, slotClash_of_checked h fun _ _ => rfl, ?_⟩
  show writeZone first es _ = _
  unfold writeZone
  rw [writeTable_checked hn]
  · rfl
  · exact h

theorem takesEntries_talk {first : U8} {es : List RawTalk} {taken : List TableEntry} (hn : first.toNat < 4)
    (h : allSome ((placed 4 first.toNat es).map fun x => (checkTalk x.2).map (.talk x.1)) = some taken) :
    s.takesEntries o (.writeTalk first es) taken ((placed 4 first.toNat es).map fun x => s.mix.talk[x.1].entry.bytes) := by
  refine ⟨rfl, rfl, slotClash_of_checked h fun _ _ => rfl, ?_⟩
  show writeTalk first es _ = _
  unfold writeTalk
  rw [writeTable_checked hn]
  · rfl
  · exact h

/-- Every code of a VOICE write is taken. -/
theorem allSome_map_some {α β : Type} (l : List α) (f : α → β) : allSome (l.map fun x => some (f x)) = some (l.map f) := by
  induction l with
  | nil => rfl
  | cons x xs ih => simp [allSome, ih]

theorem takesEntries_voice {first : U8} {codes : List U16} (hn : first.toNat < 8) :
    s.takesEntries o (.writeVoice first codes)
      ((placed 8 first.toNat codes).map fun x => .voice x.1 (clampCode x.2.toNat))
      ((placed 8 first.toNat codes).map fun x => bytes2 (s.carriedCode (.voiceGain x.1)).val) := by
  refine ⟨rfl, rfl, slotClash_of_others fun e he => ?_, ?_⟩
  · obtain ⟨x, -, rfl⟩ := List.mem_map.mp he
    rfl
  · show writeVoice first codes _ = _
    unfold writeVoice
    rw [writeTable_checked hn]
    · rfl
    · exact allSome_map_some _ _

theorem takesEntries_node {es : List RawNode} {taken : List TableEntry}
    (h : allSome ((placed 1 0 es).map fun x => (checkNode x.2).map .node) = some taken) :
    s.takesEntries o (.writeNode 0 es) taken ((placed 1 0 es).map fun _ => s.msg.node.bytes) := by
  have hnode : (s.onMsg fun m => m.placed o).msg.node = s.msg.node := by cases o <;> rfl
  refine ⟨rfl, rfl, slotClash_of_checked h fun _ _ => rfl, ?_⟩
  show writeNode 0 es _ = _
  unfold writeNode
  rw [writeTable_checked (by decide)]
  · rw [hnode]; rfl
  · exact h

end

/-- Settles O19: the refusals table by table, and the acceptance of each checked write. -/
theorem tableWritesAccepted : Obligations.TableWritesAccepted := by
  constructor
  · intro o s hb hh refused
    have range {r : Request} (h1 : settling r = .now) (h2 : readOnly r = false)
        (h3 : ∀ t, settleNow o r t = refuse .range t) :
        (s.awake fun s => s.messageNow o r) = .next (s.replied o { code := .range }) :=
      now_refused hb hh (not_dropped o h2) h1 (h3 _)
    refine ⟨fun first es h => range rfl rfl fun t => ?_, fun window codes h => range rfl rfl fun t => ?_,
      fun first es h => range rfl rfl fun t => ?_, fun first es h => range rfl rfl fun t => ?_, fun first es taken hn h hc => ?_,
      fun first es h => range rfl rfl fun t => ?_, fun first es h => range rfl rfl fun t => ?_,
      fun first codes h => range rfl rfl fun t => ?_, fun first es h => range rfl rfl fun t => ?_⟩
    case refine_2 =>
      show writeCrosspoint window codes t = _
      unfold writeCrosspoint
      rw [h]
    case refine_5 =>
      refine now_refused hb hh (not_dropped o rfl) rfl ?_
      show writeOutput first es _ = _
      unfold writeOutput
      rw [writeTable_checked (taken := taken) hn]
      · simp only [acceptEntries, slotClash_placed, hc, if_true]
      · exact h
    case refine_1 =>
      show writeInput first es t = _
      exact writeTable_refused (fun _ => checkInput) .input h t
    case refine_3 =>
      show writeBus first es t = _
      exact writeTable_refused (fun _ => checkBus) .bus h t
    case refine_4 =>
      show writeOutput first es t = _
      exact writeTable_refused checkOutput .output h t
    case refine_6 =>
      show writeZone first es t = _
      exact writeTable_refused (fun _ => checkZone) .zone h t
    case refine_7 =>
      show writeTalk first es t = _
      exact writeTable_refused (fun _ => checkTalk) .talk h t
    case refine_8 =>
      show writeVoice first codes t = _
      exact writeTable_range (.inl h) t
    case refine_9 =>
      show writeNode first es t = _
      exact writeTable_refused (fun _ => checkNode) (fun _ => .node) h t
  · intro o s hb hh hopen accepted
    exact ⟨fun _ _ _ hn h => write_accepted hb hh hopen (takesEntries_input hn h),
      fun _ _ _ h => write_accepted hb hh hopen (takesEntries_crosspoint h),
      fun _ _ _ hn h => write_accepted hb hh hopen (takesEntries_bus hn h),
      fun _ _ _ hn h hc => write_accepted hb hh hopen (takesEntries_output hn h hc),
      fun _ _ _ hn h => write_accepted hb hh hopen (takesEntries_zone hn h),
      fun _ _ _ hn h => write_accepted hb hh hopen (takesEntries_talk hn h),
      fun _ _ hn => write_accepted hb hh hopen (takesEntries_voice hn),
      fun _ _ h => write_accepted hb hh hopen (takesEntries_node h)⟩

/-- Settles O20: a checked write under a hold, by the room of the store. -/
theorem heldWritesAreStaged : Obligations.HeldWritesAreStaged := by
  intro o s hb hh hopen staged
  have both {r : Request} {taken : List TableEntry} {priors : List (List U8)} (ht : s.takesEntries o r taken priors) :=
    And.intro (write_staged hb hh hopen ht) (write_stageFull hb hh hopen ht)
  exact ⟨fun _ _ _ hn h => both (takesEntries_input hn h), fun _ _ _ h => both (takesEntries_crosspoint h),
    fun _ _ _ hn h => both (takesEntries_bus hn h), fun _ _ _ hn h hc => both (takesEntries_output hn h hc),
    fun _ _ _ hn h => both (takesEntries_zone hn h), fun _ _ _ hn h => both (takesEntries_talk hn h),
    fun _ _ hn => both (takesEntries_voice hn), fun _ _ h => both (takesEntries_node h)⟩

end Sys2Proof.Machine

/-! SUPPORT. What an accepted entry does as it applies. -/

namespace Sys2Proof.Machine

open Sys2Proof

/-! ### Records as they are written -/

/-- A write gives an input its entry (R34, R35). -/
@[simp] theorem write_entry (e : InputEntry) (r : InputRecord) : (r.write e).entry = e := by
  unfold InputRecord.write; split <;> rfl

/-- A write that changes a source resets the supervision (R34). -/
theorem write_of_change {e : InputEntry} {r : InputRecord} (h : e.source ≠ r.entry.source ∨ e.spare ≠ r.entry.spare) :
    r.write e = { r with
      entry := e, state := if e.source = none then .idle else .primary, active := .primary, forced := false
      invalidRun := 0, primaryRun := 0, spareRun := 0 } := by
  unfold InputRecord.write
  rw [if_neg fun hs => h.elim (fun h => h hs.1) fun h => h hs.2]
  cases e.source <;> rfl

/-- An INPUT SELECT keeps the entry (R37). -/
@[simp] theorem select_entry (side : Side) (r : InputRecord) : (r.select side).entry = r.entry := by
  cases side <;> unfold InputRecord.select <;> dsimp only <;> split <;> rfl

/-- An INPUT SELECT of a spare that is there takes it, and takes it by force (R37). -/
theorem select_spare {r : InputRecord} (h : r.entry.spare ≠ none) :
    (r.select .spare).forced = true ∧ (r.select .spare).state = .spare := by
  have hs : r.entry.spare.isSome = true := Option.isSome_iff_ne_none.mpr h
  unfold InputRecord.select
  dsimp only
  rw [if_pos hs]
  exact ⟨rfl, rfl⟩

/-- A write gives a bus its entry (R50). -/
@[simp] theorem busWrite_entry (e : BusEntry) (r : BusRecord) : (r.write e).entry = e := by
  unfold BusRecord.write
  dsimp only
  (repeat' split) <;> rfl

/-- A write that keeps the kind of a bus keeps all but its entry and the gain of a limiter that is OFF (R76). -/
theorem busWrite_of_sameKind {e : BusEntry} {r : BusRecord} (h : e.kind = r.entry.kind) :
    r.write e = { r with entry := e, limiterGain := if e.limiter then r.limiterGain else 4194304 } := by
  unfold BusRecord.write
  dsimp only
  rw [if_pos h]
  cases e.limiter <;> rfl

/-- A write that changes the kind of a bus sets it up anew (R52). -/
theorem busWrite_of_newKind {e : BusEntry} {r : BusRecord} (h : e.kind ≠ r.entry.kind) :
    (r.write e).muteEnd = (if e.kind = .unused ∨ r.entry.kind = .unused then 0 else r.muteEnd)
      ∧ (e.kind = .foldback ∨ r.entry.kind = .foldback →
        (r.write e).limiterGain = 4194304 ∧ (r.write e).duckEnd = 4194304 ∧ (r.write e).duckState = .idle) := by
  unfold BusRecord.write
  dsimp only
  rw [if_neg h]
  refine ⟨?_, fun hf => ?_⟩
  · (repeat' split) <;> rfl
  · rw [if_pos hf]
    cases e.limiter <;> exact ⟨rfl, rfl, rfl⟩

/-! ### What was accepted for a boundary -/

/-- Two writes of inputs, or INPUT SELECTs, that wait for a boundary apply there in their order. -/
theorem applyWrites_pair {s : State} {a b : Accepted} (h : s.msg.accepted = [a, b])
    (ha : (!a.isNode && !a.isVoice) = true) (hb : (!b.isNode && !b.isVoice) = true) :
    (runItem .writes s).msg.accepted = ((s.applyAccepted a).applyAccepted b).msg.accepted.filter
        (fun c => !(!c.isNode && !c.isVoice))
      ∧ (runItem .writes s).inputs = ((s.applyAccepted a).applyAccepted b).inputs := by
  have hf : s.msg.accepted.filter (fun c => !c.isNode && !c.isVoice) = [a, b] := by
    rw [h]; simp only [List.filter, ha, hb]
  have e : runItem .writes s = (((s.applyAccepted a).applyAccepted b).onMsg fun m =>
      { m with accepted := m.accepted.filter fun c => !(!c.isNode && !c.isVoice) }) := by
    show s.applyThose _ = _
    unfold State.applyThose
    rw [hf]
    rfl
  rw [e]
  exact ⟨rfl, rfl⟩

/-- Settles O21, table by table. -/
theorem writesApply : Obligations.WritesApply := by
  intro s
  obtain ⟨closesCross, closesBus, closesZone, closesVoice⟩ := applyEntry_closes s
  refine ⟨fun i b c => ?_, fun b e => ?_, fun o e => ?_, fun g e => ?_, fun e => rfl, fun i e side h hs => ?_, fun i e h hs => ?_,
    fun z e => ?_, fun v c => ?_, fun i e => ?_⟩
  · have hset := fun t => putCode_setCode (s.dropFade (.crosspoint i b)) (.crosspoint i b) t c
    have hfade := fun t => (putCode_fadeOf (s.dropFade (.crosspoint i b)) (.crosspoint i b) t c).trans (dropFade_fadeOf s _ t)
    exact ⟨(hset _).trans (if_pos rfl), (hfade _).trans (if_pos rfl), closesCross i b c, fun t ht =>
      ⟨((hset t).trans (if_neg ht)).trans (dropFade_setCode s _ t), (hfade t).trans (if_neg ht)⟩⟩
  · have hbus : (s.applyEntry (.bus b e)).mix.buses[b] = s.mix.buses[b].write e := alter_same s.mix.buses b _
    rw [hbus]
    exact ⟨busWrite_entry e _, (dropFade_fadeOf s (.busGain b) _).trans (if_pos rfl), closesBus b e, busWrite_of_sameKind,
      busWrite_of_newKind, fun c hc => alter_other s.mix.buses b c _ (Ne.symm hc)⟩
  · exact ⟨put_same s.mix.outputs o e, fun q hq => put_other s.mix.outputs o q e (Ne.symm hq), rfl⟩
  · exact ⟨alter_same s.mix.talk g _, fun h hh => alter_other s.mix.talk g h _ (Ne.symm hh), rfl⟩
  · obtain ⟨hacc, hin⟩ := applyWrites_pair h rfl rfl
    have hi : (runItem .writes s).inputs[i] = (s.inputs[i].select side).write e := by
      rw [hin]
      exact (alter_same _ i _).trans (congrArg (InputRecord.write e) (alter_same s.inputs i _))
    rw [hacc, hi, write_of_change (.inl (by rw [select_entry]; exact hs))]
    refine ⟨?_, rfl, rfl, rfl⟩
    show s.msg.accepted.filter _ = []
    rw [h]; rfl
  · obtain ⟨hacc, hin⟩ := applyWrites_pair h rfl rfl
    have hi : (runItem .writes s).inputs[i] = (s.inputs[i].write e).select .spare := by
      rw [hin]
      exact (alter_same _ i _).trans (congrArg (InputRecord.select .spare) (alter_same s.inputs i _))
    obtain ⟨hforced, hstate⟩ := select_spare (r := s.inputs[i].write e) (by rw [write_entry]; exact hs)
    rw [hacc, hi, select_entry, write_entry]
    refine ⟨?_, rfl, hforced, hstate⟩
    show s.msg.accepted.filter _ = []
    rw [h]; rfl
  · have hzone : (s.applyEntry (.zone z e)).relay.zones[z] = { s.relay.zones[z] with entry := e } :=
      alter_same s.relay.zones z _
    exact ⟨congrArg Zone.entry hzone, (dropFade_fadeOf s (.zoneLevel z) _).trans (if_pos rfl), closesZone z e,
      fun y hy => alter_other s.relay.zones z y _ (Ne.symm hy)⟩
  · have hset := putCode_setCode ((s.dropFade (.voiceGain v)).onVoice v Voice.unstop) (.voiceGain v) (.voiceGain v) c
    have hfade := (putCode_fadeOf ((s.dropFade (.voiceGain v)).onVoice v Voice.unstop) (.voiceGain v) (.voiceGain v) c).trans
      (dropFade_fadeOf s (.voiceGain v) (.voiceGain v))
    refine ⟨hset.trans (if_pos rfl), hfade.trans (if_pos rfl), closesVoice v c, fun u hu => ?_⟩
    exact (alter_other _ v u _ (Ne.symm hu)).trans (alter_other s.clip.voices v u _ (Ne.symm hu))
  · have hinput : (s.applyEntry (.input i e)).inputs[i] = s.inputs[i].write e := alter_same s.inputs i _
    rw [hinput]
    exact ⟨write_entry e _, fun h1 h2 => if_pos ⟨h1, h2⟩, write_of_change, fun j hj => alter_other s.inputs i j _ (Ne.symm hj)⟩

end Sys2Proof.Machine

/-! SUPPORT. TABLE READ, the METER read, and the staged hold. -/

namespace Sys2Proof.Machine

open Sys2Proof

/-! ### TABLE READ (R49, R179) -/

/-- A read kind that is dropped: it reaches the node as a message to a group or to broadcast, and nothing happens (R175). -/
theorem now_dropped {s : State} {o : Origin} {r : Request} (hb : s.between) (ho : ∀ tag, o ≠ .addressed tag)
    (hr : readOnly r = true) : (s.awake fun s => s.messageNow o r) = .next s := by
  have hd : dropped o r = true := by
    cases o with
    | addressed tag => exact absurd rfl (ho tag)
    | group a => exact hr
    | broadcast => exact hr
  rw [awake_next hb.1, messageNow_dropped hb hd]

/-- A message that its owner answers at execution from the state as it is. -/
theorem now_answered {s : State} {o : Origin} {r : Request} {res : Result} (hb : s.between) (hh : s.hears o)
    (hd : dropped o r = false) (hs : settling r = .now)
    (hset : settleNow o r (s.onMsg fun m => m.placed o) = (res, s.onMsg fun m => m.placed o)) :
    (s.awake fun s => s.messageNow o r) = .next (s.replied o res) :=
  now_replied s hb hh hd hs hset rfl rfl

/-- The items of a read do not depend on the place the message has taken. -/
theorem readItem_placed (s : State) (o : Origin) : readItem (s.onMsg fun m => m.placed o) = readItem s := by
  cases o <;> rfl

/-- A table of entries is neither CROSSPOINT nor METER. -/
theorem ne_of_tableSize {table : U8} {n : Nat} (h : tableSize table.toNat = some n) : table ≠ 2 ∧ table ≠ 9 := by
  have h2 : tableSize (2 : U8).toNat = none := by decide
  have h9 : tableSize (9 : U8).toNat = none := by decide
  constructor
  · rintro rfl; rw [h2] at h; cases h
  · rintro rfl; rw [h9] at h; cases h

/-- A read of a range of a table. -/
theorem readTable_range {table : U8} {n : Nat} {first count : U8} (h : tableSize table.toNat = some n) (s : State) :
    readTable table (.range first count) s = if n ≤ first.toNat then refuse .range s else
      ({ code := .ok
         data := [table, first, count] ++ counted 276 ((rangeOf n first count).map (readItem s table.toNat)) }, s) := by
  obtain ⟨h2, h9⟩ := ne_of_tableSize h
  unfold readTable
  dsimp only
  rw [if_neg h2, if_neg h9, h]
  rfl

/-! ### The METER read (R181) -/

/-- The front of a run of numbers is a run. -/
theorem take_run (a n k : Nat) : (List.range' a n).take k = List.range' a (min k n) := by
  rcases Nat.le_total n k with h | h
  · rw [List.take_range'_of_length_le h, Nat.min_eq_right h]
  · rw [List.take_range'_of_length_ge h, Nat.min_eq_left h]

/-- The indices of a range are a run. -/
theorem rangeOf_eq (n : Nat) (first count : U8) :
    rangeOf n first count = List.range' first.toNat (min count.toNat (n - first.toNat)) := by
  rw [rangeOf, List.range_eq_range', List.drop_range', take_run, Nat.mul_one, Nat.zero_add]

/-- The peaks a METER read returns. -/
theorem readMeter_kept (s : State) (first count : U8) :
    fitting (replyRoom - 5) ((rangeOf 96 first count).map fun k => bytes3 (s.meterPeak k))
      = (List.range' first.toNat (min count.toNat (min (96 - first.toNat) 91))).map fun k => bytes3 (s.meterPeak k) := by
  rw [fitting_const 3 (by decide) _ _ (fun x hx => by obtain ⟨k, -, rfl⟩ := List.mem_map.mp hx; rfl), rangeOf_eq,
    ← List.map_take, take_run]
  refine congrArg (fun k => (List.range' first.toNat k).map _) ?_
  have h91 : (replyRoom - 5) / 3 = 91 := by decide
  omega

/-- A METER read from an entry that there is. -/
theorem readMeter_eq {first count : U8} (h : first.toNat < 96) (s : State) :
    let k := min count.toNat (min (96 - first.toNat) 91)
    readMeter first count s = ({ code := .ok, data := [9, first, count] ++ bytes2 k
        ++ (List.range' first.toNat k).flatMap fun n => bytes3 (s.meterPeak n) }, s.clearMeters first.toNat k) := by
  intro k
  unfold readMeter
  rw [if_neg (Nat.not_le.mpr h)]
  dsimp only
  rw [readMeter_kept, List.length_map, List.length_range', List.flatMap_def]

/-- The meters of a run of entries are cleared, and nothing else is done. -/
theorem clearMeters_eq (s : State) (first count : Nat) : s.clearMeters first count = { s with
    inputs := (s.clearMeters first count).inputs
    mix := { s.mix with buses := (s.clearMeters first count).mix.buses } } := by
  unfold State.clearMeters
  rfl

theorem clearMeters_input (s : State) (first count : Nat) (i : Fin 64) : (s.clearMeters first count).inputs[i]
    = if first ≤ i.val ∧ i.val < first + count then { s.inputs[i] with meter := 0 } else s.inputs[i] := by
  unfold State.clearMeters
  exact table_at _ i

theorem clearMeters_bus (s : State) (first count : Nat) (b : Fin 32) : (s.clearMeters first count).mix.buses[b]
    = if first ≤ b.val + 64 ∧ b.val + 64 < first + count then { s.mix.buses[b] with meter := 0 } else s.mix.buses[b] := by
  unfold State.clearMeters
  exact table_at _ b

/-- Clearing meters and placing a message are independent. -/
theorem clearMeters_onMsg (s : State) (f : Msg → Msg) (first count : Nat) :
    (s.onMsg f).clearMeters first count = (s.clearMeters first count).onMsg f := by
  unfold State.clearMeters State.onMsg
  rfl

theorem meterPeak_input (s : State) (i : Fin 64) : s.meterPeak i.val = s.inputs[i].meter := dif_pos i.isLt

theorem meterPeak_bus (s : State) (b : Fin 32) : s.meterPeak (64 + b.val) = s.mix.buses[b].meter := by
  have h1 : ¬ 64 + b.val < 64 := by omega
  have h2 : 64 + b.val - 64 = b.val := by omega
  have h3 : 64 + b.val - 64 < 32 := by omega
  unfold State.meterPeak
  rw [dif_neg h1, dif_pos h3]
  simp only [h2, Fin.getElem_fin]

/-- Settles O22: the reads of a table, the METER read, and what refuses or drops either. -/
theorem tableReadReplies : Obligations.TableReadReplies := by
  intro o s hb hh
  refine ⟨?_, ?_, ?_, ?_, ?_, fun table place ho => now_dropped hb ho rfl, ?_, fun first count ho => now_dropped hb ho rfl⟩
  · rintro tag table n first count rfl hn hf
    refine now_answered hb hh rfl rfl ((readTable_range hn _).trans ?_)
    rw [if_neg (Nat.not_le.mpr hf), readItem_placed]
  · rintro tag window cells rfl hw
    refine now_answered hb hh rfl rfl ?_
    show readTable 2 (.window window) _ = _
    unfold readTable
    dsimp only
    rw [if_pos rfl, hw]
    rfl
  · rintro tag table n first count rfl hn hf
    exact now_refused hb hh rfl rfl ((readTable_range hn _).trans (if_pos hf))
  · rintro tag window rfl hw
    refine now_refused hb hh rfl rfl ?_
    show readTable 2 (.window window) _ = _
    unfold readTable
    dsimp only
    rw [if_pos rfl, hw]
  · rintro tag first count rfl hf
    exact now_refused hb hh rfl rfl (if_pos hf)
  · rintro tag first count rfl hf k returned
    refine ⟨s.clearMeters first.toNat k, s.meterPeak, ?_, fun i => ⟨meterPeak_input s i, ?_, ?_⟩,
      fun b => ⟨meterPeak_bus s b, ?_, ?_⟩, clearMeters_eq s _ _⟩
    · refine now_replied (s.clearMeters first.toNat k) hb hh rfl rfl ((readMeter_eq hf _).trans ?_) rfl rfl
      rw [clearMeters_onMsg]
      rfl
    · intro h; rw [clearMeters_input, if_pos h]
    · intro h; rw [clearMeters_input, if_neg h]
    · intro h; rw [clearMeters_bus, Nat.add_comm, if_pos h]
    · intro h; rw [clearMeters_bus, Nat.add_comm, if_neg h]

/-! ### The staged hold (R182, R183) -/

/-- Settles O23: each message on an open and on a closed hold, and the age of the hold. -/
theorem holdMessages : Obligations.HoldMessages := by
  refine ⟨fun s => ⟨fun h => ?_, fun h ha => ?_⟩, fun o s => ⟨fun hb hh h => ?_, fun hb hh h => ?_, fun ha h hl => ?_⟩⟩
  · show s.ageHold = s
    simp [State.ageHold, h]
  · show s.ageHold = _
    simp [State.ageHold, h, Nat.not_le.mpr ha]
  · have h' : (s.onMsg fun m => m.placed o).msg.holdOpen = false := by cases o <;> exact h
    refine ⟨now_replied (s.onMsg fun m => { m with holdOpen := true, holdAge := 0, staged := [] }) hb hh (not_dropped o rfl) rfl
      ?_ rfl rfl, now_refused hb hh (not_dropped o rfl) rfl ?_, now_refused hb hh (not_dropped o rfl) rfl ?_⟩
    · show holdOn _ = _
      rw [holdOn, h', if_neg (by decide)]
      cases o <;> rfl
    · show holdApply _ = _
      rw [holdApply, h', if_neg (by decide)]
    · show holdDiscard _ = _
      rw [holdDiscard, h', if_neg (by decide)]
  · have h' : (s.onMsg fun m => m.placed o).msg.holdOpen = true := by cases o <;> exact h
    refine ⟨now_answered hb hh (not_dropped o rfl) rfl ?_,
      now_replied (s.onMsg fun m => { m with
        holdOpen := false, holdAge := 0, staged := [], accepted := m.accepted ++ m.staged.map (.write true) })
        hb hh (not_dropped o rfl) rfl ?_ rfl rfl,
      now_replied (s.onMsg fun m => { m with holdOpen := false, holdAge := 0, staged := [] })
        hb hh (not_dropped o rfl) rfl ?_ rfl rfl⟩
    · show holdOn _ = _
      rw [holdOn, h', if_pos rfl]
      cases o <;> rfl
    · show holdApply _ = _
      rw [holdApply, h', if_pos rfl]
      cases o <;> rfl
    · show holdDiscard _ = _
      rw [holdDiscard, h', if_pos rfl]
      cases o <;> rfl
  · refine (stepIn_next ha (by simp [h, hl])).trans ?_
    rw [runDue_atItem ha]
    show Host.Outcome.next (s.without .hold).ageHold = _
    have h' : (s.without .hold).msg.holdOpen = true := h
    have hl' : (s.without .hold).msg.node.holdLimit ≤ (s.without .hold).msg.holdAge + 1 := hl
    rw [State.ageHold, if_pos h', if_pos hl']
    rfl

end Sys2Proof.Machine

/-! SUPPORT. The cue list: CUE STORE, CUE REMOVE, CUE READ. -/

namespace Sys2Proof.Machine

open Sys2Proof

/-! ### CUE STORE (R81 to R83) -/

/-- CUE STORE of a record that does not pass its checks. -/
theorem cueStore_range {raw : RawCue} (h : checkCue raw = none) (s : State) : cueStore raw s = refuse .range s := by
  unfold cueStore
  rw [h]

/-- CUE STORE of a checked record. -/
theorem cueStore_eq {raw : RawCue} {c : Cue} (h : checkCue raw = some c) (s : State) :
    cueStore raw s =
      if Config.maxCues < (withCue s.cue.cues c).length ∨ Config.maxActions < actionTotal (withCue s.cue.cues c)
      then refuse .noSpace s
      else ({ code := .ok, data := listCounts (withCue s.cue.cues c) },
        s.onCue fun e => { e with cues := withCue s.cue.cues c }) := by
  unfold cueStore
  rw [h]

/-- Settles O24, by the checks of CUE STORE in their order. -/
theorem cueStorePlacesRecord : Obligations.CueStorePlacesRecord := by
  intro o raw s hb hh
  have hd := not_dropped o (r := .cueStore raw) rfl
  refine ⟨fun h => now_refused hb hh hd rfl (cueStore_range h _), fun c hc => ?_⟩
  intro cues actions
  have hset := cueStore_eq hc (s.onMsg fun m => m.placed o)
  refine ⟨fun h => now_refused hb hh hd rfl (hset.trans (if_pos h)), fun hl ha => ?_⟩
  have hn : ¬ (Config.maxCues < cues.length ∨ Config.maxActions < actions) :=
    not_or.mpr ⟨Nat.not_lt.mpr hl, Nat.not_lt.mpr ha⟩
  exact now_replied (s.onCue fun e => { e with cues := cues }) hb hh hd rfl (hset.trans (if_neg hn)) rfl rfl

/-! ### CUE REMOVE (R84) -/

/-- No record has the number. -/
theorem findCue_none {cues : List Cue} {n : Nat} (h : ∀ c ∈ cues, c.number ≠ n) : findCue cues n = none :=
  List.find?_eq_none.mpr fun c hc => by simpa using h c hc

/-- A record has the number. -/
theorem findCue_of_mem {cues : List Cue} {n : Nat} (h : ∃ c ∈ cues, c.number = n) :
    ∃ c, findCue cues n = some c ∧ c.number = n := by
  obtain ⟨c, hc, rfl⟩ := h
  cases e : findCue cues c.number with
  | none => exact absurd (List.find?_eq_none.mp e c hc) (by simp)
  | some d => exact ⟨d, rfl, by simpa using List.find?_some e⟩

/-- A number, or all ones for none, in four bytes (R85). -/
theorem optCue_eq (n : Option Nat) : optCue n = bytes4 (n.getD 0xFFFFFFFF) := by
  cases n <;> rfl

/-- CUE REMOVE of a number that is in the list. -/
theorem cueRemove_eq {number : U32} {s : State} (h : ∃ c ∈ s.cue.cues, c.number = number.toNat) :
    let cues := withoutCue s.cue.cues number.toNat
    let standby := if s.cue.standby = some number.toNat then (nextAfter s.cue.cues number.toNat).map Cue.number
      else s.cue.standby
    cueRemove number s = ({ code := .ok, data := optCue standby ++ listCounts cues },
      s.onCue fun e => { e with cues := cues, standby := standby }) := by
  obtain ⟨c, hc, hn⟩ := findCue_of_mem h
  unfold cueRemove
  rw [hc]
  dsimp only
  rw [hn]

/-! ### CUE READ (R85) -/

/-- CUE READ of a cue that there is. -/
theorem cueRead_some {number : U32} {mode : U8} {s : State} {c : Cue} (hn : number.toNat ≤ maxCueNumber) (hm : mode.toNat < 2)
    (h : (if mode = 0 then findCue s.cue.cues number.toNat else nextAfter s.cue.cues number.toNat) = some c) :
    cueRead number mode s = ({ code := .ok, data := c.bytes }, s) := by
  unfold cueRead
  rw [if_neg (by omega), h]

/-- CUE READ of a cue that there is not. -/
theorem cueRead_none {number : U32} {mode : U8} {s : State} (hn : number.toNat ≤ maxCueNumber) (hm : mode.toNat < 2)
    (h : (if mode = 0 then findCue s.cue.cues number.toNat else nextAfter s.cue.cues number.toNat) = none) :
    cueRead number mode s = refuse .notFound s := by
  unfold cueRead
  rw [if_neg (by omega), h]

/-- Settles O25: the record that CUE REMOVE deletes, and the one that CUE READ returns. -/
theorem cuesRemovedAndRead : Obligations.CuesRemovedAndRead := by
  refine ⟨fun o number s hb hh => ⟨fun h => ?_, fun h => ?_⟩, fun tag number s hb hh => ⟨fun h mode => ?_, fun h => ⟨?_, ?_⟩⟩⟩
  · refine now_refused hb hh (not_dropped o rfl) rfl ?_
    show cueRemove number _ = _
    unfold cueRemove
    rw [show findCue (s.onMsg fun m => m.placed o).cue.cues number.toNat = none from findCue_none h]
  · intro cues standby
    refine now_replied (s.onCue fun e => { e with cues := cues, standby := standby }) hb hh (not_dropped o rfl) rfl ?_ rfl rfl
    refine (cueRemove_eq (s := s.onMsg fun m => m.placed o) h).trans ?_
    rw [optCue_eq, List.append_assoc]
    rfl
  · exact now_refused hb hh rfl rfl (if_pos (.inl h))
  · cases hc : s.cue.cues.find? fun c => c.number == number.toNat with
    | some c => exact now_answered hb hh rfl rfl (cueRead_some h (by decide) ((if_pos rfl).trans hc))
    | none => exact now_refused hb hh rfl rfl (cueRead_none h (by decide) ((if_pos rfl).trans hc))
  · cases hc : s.cue.cues.find? fun c => decide (number.toNat < c.number) with
    | some c => exact now_answered hb hh rfl rfl (cueRead_some h (by decide) ((if_neg (by decide)).trans hc))
    | none => exact now_refused hb hh rfl rfl (cueRead_none h (by decide) ((if_neg (by decide)).trans hc))

end Sys2Proof.Machine

/-! SUPPORT. Messages taken at a boundary, and the cue engine's own: GO, STANDBY, HALT, RESUME. -/

namespace Sys2Proof.Machine

open Sys2Proof

/-! ### Posts and the rest of the message controller -/

/-- The message controller but for what posts add: the events, the conditions and the posts on their way. -/
def Msg.still (m : Msg) : Msg := { m with events := [], conditions := 0, coming := [] }

/-- An event that reaches the message controller changes its events and conditions only. -/
theorem msg_post_still (m : Msg) (n : U32) (p : Post) : (m.post n p).still = m.still := by
  unfold Msg.post
  dsimp only
  (repeat' split) <;> rfl

/-- A post adds an event, conditions or a post on its way, and nothing else. -/
@[simp] theorem post_still (s : State) (p : Post) : (s.post p).msg.still = s.msg.still := by
  cases h : s.msg.holdsBack p.kind with
  | false => rw [post_direct h]; exact msg_post_still _ _ _
  | true => rw [post_late h]; rfl

theorem stopVoice_still (s : State) (v : Fin 8) (d : Nat) (o : Option Nat) (n : Nat) :
    (s.stopVoice v d o n).msg.still = s.msg.still := by
  unfold State.stopVoice
  dsimp only
  split
  · rfl
  · rw [silenceVoice_msg]
  · split
    · rw [closeVoice_msg]; rfl
    · rfl
  · rfl
  · unfold State.fadeVoiceOut
    split
    · rw [silenceVoice_msg]
    · split
      · exact congrArg Msg.still (putFade_msg _ _)
      · rw [silenceVoice_msg, post_still]

theorem move_still (s : State) (cue n : Nat) (t : Target) (c : LevelCode) (d : Nat) (sh : Shape) :
    (s.move cue n t c d sh).msg.still = s.msg.still := by
  unfold State.move
  split
  · rw [putCode_msg, unstopTarget_msg]; rfl
  · split
    · rw [unstopTarget_msg, putFade_msg]
    · rw [putCode_msg, post_still]

/-- An action that is performed leaves the message controller but for its posts. -/
theorem perform_still {s t : State} {cue n : Nat} {a : Action} (h : s.perform cue n a = .ok t) :
    t.msg.still = s.msg.still := by
  cases a <;> simp only [State.perform] at h
  case move => split at h <;> cases h; exact move_still _ _ _ _ _ _ _
  case play => (repeat' split at h) <;> cases h; rw [playVoice_msg]
  case stop => split at h <;> cases h; exact stopVoice_still _ _ _ _ _
  case route => split at h <;> cases h; rfl
  case call => split at h <;> cases h; rfl

theorem performAll_still (cue n k : Nat) (as : List Action) (s : State) :
    (State.performAll cue n k as s).1.msg.still = s.msg.still := by
  induction as generalizing k s with
  | nil => rfl
  | cons a as ih =>
    unfold State.performAll
    split
    · next h => rw [ih, perform_still h]
    · dsimp only; rw [ih, post_still]

/-- A firing leaves the message controller but for its posts. -/
theorem fire_still (s : State) (c : Cue) (a : Arrival) : (s.fire c a).msg.still = s.msg.still := by
  unfold State.fire
  dsimp only
  rw [post_still]
  exact performAll_still _ _ _ _ _

/-- What posts leave of the replies. -/
theorem replies_of_still {m n : Msg} (h : m.still = n.still) : m.replies = n.replies ∧ m.nextPlace = n.nextPlace := by
  have h1 := congrArg Msg.replies h
  have h2 := congrArg Msg.nextPlace h
  exact ⟨h1, h2⟩

/-- Taking an event and placing a message are independent in the message controller. -/
theorem msg_post_placed (m : Msg) (o : Origin) (n : U32) (p : Post) : (m.placed o).post n p = (m.post n p).placed o := by
  cases o with
  | addressed tag =>
    unfold Msg.post
    dsimp only [Msg.placed, Msg.reports]
    by_cases hr : (m.node.enables.getLsbD p.kind.value || p.kind.alwaysReported) = true
    · by_cases hl : m.events.length < Config.maxEvents
      · simp [hr, hl]
      · simp [hr, hl]
    · simp [hr]
  | group a => rfl
  | broadcast => rfl

/-- Posting an event and placing a message are independent. -/
theorem post_placed (s : State) (o : Origin) (p : Post) :
    (s.onMsg fun m => m.placed o).post p = (s.post p).onMsg fun m => m.placed o := by
  have hl : (s.msg.placed o).holdsBack p.kind = s.msg.holdsBack p.kind := by cases o <;> rfl
  cases h : s.msg.holdsBack p.kind with
  | false =>
    rw [post_direct h, post_direct (s := s.onMsg fun m => m.placed o) (hl.trans h)]
    exact congrArg (fun m => ({ s with msg := m } : State)) (msg_post_placed s.msg o _ p)
  | true =>
    rw [post_late h, post_late (s := s.onMsg fun m => m.placed o) (hl.trans h)]
    cases o <;> rfl

/-! ### Messages taken at a boundary (R87, R124) -/

/-- The queue of waiting requests does not depend on the place a message has taken. -/
theorem placed_waiting (s : State) (o : Origin) (w : Waiting) :
    ((s.onMsg fun m => m.placed o).onMsg fun m => { m with waiting := m.waiting ++ [w] })
      = { s with msg := { s.msg.placed o with waiting := s.msg.waiting ++ [w] } } := by
  cases o <;> rfl

/-- A request for the boundary waits, after those that already wait. -/
theorem boundary_waits {s : State} {o : Origin} {r : Request} (hb : s.between) (hh : s.hears o) (hs : settling r = .boundary) :
    (s.awake fun s => s.messageAtBoundary o r) = .next { s with
      msg := { s.msg.placed o with
        waiting := s.msg.waiting ++ [{ origin := o, place := s.msg.placeOf o, request := r }] } } := by
  rw [awake_next hb.1, State.messageAtBoundary, messageAt_between hb hh rfl, State.handOver, hs]
  exact congrArg _ (placed_waiting s o _)

/-- A request that comes at its item, where nothing waits, is taken there and then. -/
theorem boundary_taken {s : State} {o : Origin} {r : Request} (ha : s.atItem .requests) (hw : s.msg.waiting = [])
    (hh : s.hears o) :
    (s.awake fun s => s.messageAtBoundary o r) = .next ((s.onMsg fun m => m.placed o).takeWaiting
      { origin := o, place := s.msg.placeOf o, request := r }) := by
  rw [awake_next ha.1, State.messageAtBoundary, messageAt_atItem ha (takeRequests_none s hw) hh]

/-- The same, for an owner that works alike before and after the message is placed: what it does to the state as it was, and the
reply. -/
theorem boundary_replied {s : State} (t : State) {o : Origin} {r : Request} {res : Result} (ha : s.atItem .requests)
    (hw : s.msg.waiting = []) (hh : s.hears o)
    (htake : takeRequest o r (s.onMsg fun m => m.placed o) = (res, t.onMsg fun m => m.placed o))
    (hs : t.msg.still = s.msg.still) :
    (s.awake fun s => s.messageAtBoundary o r) = .next (t.replied o res) := by
  obtain ⟨hr, hn⟩ := replies_of_still hs
  rw [boundary_taken ha hw hh, State.takeWaiting, htake]
  exact congrArg _ (answer_placed s t o res hh.2.2 hr hn)

/-- A request that its owner refuses: nothing but the reply (R175). -/
theorem boundary_refused {s : State} {o : Origin} {r : Request} {code : ResultCode} (ha : s.atItem .requests)
    (hw : s.msg.waiting = []) (hh : s.hears o)
    (htake : takeRequest o r (s.onMsg fun m => m.placed o) = refuse code (s.onMsg fun m => m.placed o)) :
    (s.awake fun s => s.messageAtBoundary o r) = .next (s.replied o { code := code }) :=
  boundary_replied s ha hw hh htake rfl


/-! ### GO (R88 to R90) -/

/-- The guard stands when the last firing is too recent (R90). -/
theorem guarded_of_recent {s : State} {f : Nat} (h : s.cue.lastFiring = some f) (hg : s.boundaries - f < s.msg.node.guard) :
    s.guarded = true := by
  unfold State.guarded
  rw [h]
  exact decide_eq_true hg

/-- The guard does not stand when the last firing, if any, is old enough (R90). -/
theorem guarded_of_old {s : State} (h : ∀ f, s.cue.lastFiring = some f → s.msg.node.guard ≤ s.boundaries - f) :
    s.guarded = false := by
  unfold State.guarded
  cases hf : s.cue.lastFiring with
  | none => rfl
  | some f => exact decide_eq_false (Nat.not_lt.mpr (h f hf))

/-- The cue that a GO fires when the checks before the guard pass: the one it names, or the standby (R89). -/
def State.goTarget (s : State) (number : Option Nat) : Option Cue :=
  match number with
  | some n => findCue s.cue.cues n
  | none => s.standbyCue

/-- A GO whose number no cue may have is refused with RANGE (R89). -/
theorem takeGo_range {s : State} {a : Arrival} {n : Nat} (h : maxCueNumber < n) :
    s.takeGo a (some n) = ({ code := .range }, s.refuseGo a .range) := by
  unfold State.takeGo
  exact if_pos (decide_eq_true h)

/-- A GO past the check of its number: HELD, then the cue it names (R89). -/
theorem takeGo_eq {s : State} {a : Arrival} {number : Option Nat} (h : ∀ n, number = some n → n ≤ maxCueNumber) :
    s.takeGo a number = if s.cue.held = true then ({ code := .held }, s.refuseGo a .held)
      else match s.goTarget number with
        | some c => s.guardedFire a c
        | none => match number with
          | some n => ({ code := .notFound }, s.post (goUnknownPost n))
          | none => ({ code := .notFound }, s.refuseGo a .noStandby) := by
  unfold State.takeGo
  cases number with
  | none =>
    unfold State.goTarget
    cases s.standbyCue <;> rfl
  | some n =>
    have hn : ¬ ((some n).any fun n => decide (maxCueNumber < n)) = true := by simpa using h n rfl
    rw [if_neg hn]
    unfold State.goTarget
    dsimp only
    cases findCue s.cue.cues n <;> rfl

/-- A GO with HELD SET is refused with HELD (R89). -/
theorem takeGo_held {s : State} {a : Arrival} {number : Option Nat} (h : ∀ n, number = some n → n ≤ maxCueNumber)
    (hh : s.cue.held = true) : s.takeGo a number = ({ code := .held }, s.refuseGo a .held) :=
  (takeGo_eq h).trans (if_pos hh)

/-- A GO that names no cue fires the standby, or is refused when there is none (R89). -/
theorem takeGo_noStandby {s : State} {a : Arrival} (hh : s.cue.held = false) (hs : s.standbyCue = none) :
    s.takeGo a none = ({ code := .notFound }, s.refuseGo a .noStandby) := by
  rw [takeGo_eq (fun n h => by cases h), hh, if_neg (by decide), State.goTarget, hs]

/-- A GO of a number that is not in the list (R89). -/
theorem takeGo_unknown {s : State} {a : Arrival} {n : Nat} (hn : n ≤ maxCueNumber) (hh : s.cue.held = false)
    (hf : findCue s.cue.cues n = none) :
    s.takeGo a (some n) = ({ code := .notFound }, s.post (goUnknownPost n)) := by
  rw [takeGo_eq (fun m h => by cases h; exact hn), hh, if_neg (by decide), State.goTarget, hf]

/-- A GO that finds its cue comes to the guard (R90). -/
theorem takeGo_found {s : State} {a : Arrival} {number : Option Nat} {c : Cue}
    (h : ∀ n, number = some n → n ≤ maxCueNumber) (hh : s.cue.held = false) (hc : s.goTarget number = some c) :
    s.takeGo a number = s.guardedFire a c := by
  rw [takeGo_eq h, hh, if_neg (by decide), hc]

/-- Within the guard a GO is refused (R90). -/
theorem guardedFire_guard {s : State} {a : Arrival} {c : Cue} (h : s.guarded = true) :
    s.guardedFire a c = ({ code := .guard }, s.refuseGo a .guard) := if_pos h

/-- Past the guard a GO fires its cue (R90). -/
theorem guardedFire_fires {s : State} {a : Arrival} {c : Cue} (h : s.guarded = false) :
    s.guardedFire a c = ({ code := .ok, data := optCue (some c.number) ++ optCue (s.fire c a).cue.standby }, s.fire c a) := by
  unfold State.guardedFire
  rw [h]
  rfl

/-- A refused GO and the placing of its message are independent. -/
theorem refuseGo_placed (s : State) (o : Origin) (r : GoReason) :
    (s.onMsg fun m => m.placed o).refuseGo (Arrival.ofOrigin o) r
      = (s.refuseGo (Arrival.ofOrigin o) r).onMsg fun m => m.placed o := by
  cases o <;> rfl

/-- A refused GO changes the message controller by its post only. -/
theorem refuseGo_still (s : State) (a : Arrival) (r : GoReason) : (s.refuseGo a r).msg.still = s.msg.still := by
  unfold State.refuseGo
  split
  · rfl
  · exact post_still _ _

/-! ### What a firing leaves when its answer is written (R93) -/

/-- The answer to a message changes the replies only. -/
theorem answer_grows (s : State) (place : Option Nat) (r : Result) : s.msg.Grows (s.answer place r).msg 0 := by
  cases place with
  | none => exact grows_refl _
  | some p => exact ⟨rfl, rfl, ⟨[], (List.append_nil _).symm, Nat.le_refl 0⟩, ⟨[], (List.append_nil _).symm⟩, fun _ h => h⟩

/-- The answer to a message leaves what the firing has done. -/
theorem fired_answer {s t : State} {c : Cue} {k : U8} (h : s.fired t c k) (place : Option Nat) (r : Result) :
    s.fired (t.answer place r) c k := by
  obtain ⟨h1, h2, h3, h4, h5, h6, h7, h8, h9, h10, h11, h12, h13, h14, h15, h16⟩ := h
  have ht : t.answer place r = { t with msg := (t.answer place r).msg } := by cases place <;> rfl
  have hr := reported_later h15 (answer_grows t place r)
  refine ⟨?_, ?_, ?_, ?_, ?_, ?_, ?_, ?_, ?_, ?_, ?_, ?_, ?_, ?_, hr, ?_⟩
  all_goals rw [ht]; assumption

/-- The answer stands in the place of its message (R175). -/
theorem answer_mem {s : State} {q : Reply} {p : Nat} (h : q ∈ s.msg.replies) (hp : q.place = p) (r : Result) :
    { q with body := some r.bytes, completedAt := s.boundaries } ∈ (s.answer (some p) r).msg.replies :=
  List.mem_map.mpr ⟨q, h, if_pos hp⟩

/-- A GO taken at its boundary past its checks and the guard: the cue is fired, and the reply carries both numbers (R93). -/
theorem go_fires {s : State} {o : Origin} {number : U32} {c : Cue} (ha : s.atItem .requests) (hw : s.msg.waiting = [])
    (hh : s.hears o) (hheld : s.cue.held = false) (hn : ∀ n, optionalCue number = some n → n ≤ maxCueNumber)
    (hc : s.goTarget (optionalCue number) = some c)
    (hg : ∀ f, s.cue.lastFiring = some f → s.msg.node.guard ≤ s.boundaries - f) :
    let placed := s.onMsg fun m => m.placed o
    let fired := placed.fire c (Arrival.ofOrigin o)
    exec (.go o number) s = .next (fired.answer (s.msg.placeOf o)
      { code := .ok, data := optCue (some c.number) ++ optCue fired.cue.standby }) := by
  intro placed fired
  have hg' : placed.guarded = false := guarded_of_old (by cases o <;> exact hg)
  refine (boundary_taken ha hw hh).trans ?_
  have htake : takeRequest o (.go number) placed
      = ({ code := .ok, data := optCue (some c.number) ++ optCue fired.cue.standby }, fired) :=
    (takeGo_found (s := placed) hn hheld hc).trans (guardedFire_fires hg')
  rw [State.takeWaiting, htake]

/-- A GO with a number or without: what the obligation's cases say of the cue it finds. -/
theorem goTarget_of_cases {s : State} {number : U32} {c : Cue} (h1 : number = 0xFFFFFFFF → s.standbyCue = some c)
    (h2 : number ≠ 0xFFFFFFFF → number.toNat ≤ 99999 ∧ findCue s.cue.cues number.toNat = some c) :
    s.goTarget (optionalCue number) = some c ∧ ∀ n, optionalCue number = some n → n ≤ maxCueNumber := by
  unfold optionalCue
  by_cases h : number = 0xFFFFFFFF
  · rw [if_pos h]
    exact ⟨h1 h, fun n hn => by cases hn⟩
  · rw [if_neg h]
    exact ⟨(h2 h).2, fun n hn => by cases hn; exact (h2 h).1⟩

/-- A GO whose number a cue may have names that number. -/
theorem optionalCue_of_le {number : U32} (h : number.toNat ≤ 99999) : optionalCue number = some number.toNat := by
  have hne : number ≠ 0xFFFFFFFF := by rintro rfl; exact absurd h (by decide)
  exact if_neg hne

/-- A refused GO at its boundary. -/
theorem go_refused {s : State} {o : Origin} {number : U32} {code : ResultCode} {r : GoReason} (ha : s.atItem .requests)
    (hw : s.msg.waiting = []) (hh : s.hears o)
    (htake : (s.onMsg fun m => m.placed o).takeGo (Arrival.ofOrigin o) (optionalCue number)
      = ({ code := code }, (s.onMsg fun m => m.placed o).refuseGo (Arrival.ofOrigin o) r)) :
    exec (.go o number) s = .next ((s.refuseGo (Arrival.ofOrigin o) r).replied o { code := code }) := by
  rw [refuseGo_placed] at htake
  exact boundary_replied (r := .go number) (s.refuseGo (Arrival.ofOrigin o) r) ha hw hh htake (refuseGo_still _ _ _)

/-- A press of the GO line that the boundary has taken is a GO without a number (R190). -/
theorem goLine_pressed {s : State} (h : s.ports.goPressed = true) :
    runItem .goLine s = ((s.onPorts fun q => { q with goPressed := false }).takeGo .line none).2 := by
  show s.takeGoLine = _
  unfold State.takeGoLine
  rw [h, if_pos rfl]

/-- Settles O26: the GO line, and the GO message at and before its boundary. -/
theorem goFires : Obligations.GoFires := by
  refine ⟨fun s => ⟨fun h => ?_, fun h => ?_⟩, fun o number s hh => ⟨fun hb => boundary_waits hb hh rfl, fun ha hw => ?_,
    fun c ha hw hheld h1 h2 hg => ?_⟩⟩
  · show s.takeGoLine = s
    unfold State.takeGoLine
    rw [h, if_neg (by decide)]
  · intro p refused
    have line : ∀ {x : Result × State}, p.takeGo .line none = x → runItem .goLine s = x.2 :=
      fun hx => (goLine_pressed h).trans (congrArg Prod.snd hx)
    have none_le : ∀ n, (none : Option Nat) = some n → n ≤ maxCueNumber := fun n hn => by cases hn
    refine ⟨fun hheld => line (takeGo_held none_le hheld), fun hheld hs => line (takeGo_noStandby hheld hs),
      fun c hheld hs => ⟨fun f hf hr => ?_, fun hg => ?_⟩⟩
    · exact line ((takeGo_found (s := p) none_le hheld hs).trans (guardedFire_guard (guarded_of_recent hf hr)))
    · rw [line ((takeGo_found (s := p) none_le hheld hs).trans (guardedFire_fires (guarded_of_old hg)))]
      exact fire_fired p c .line
  · intro refused
    have posted : ∀ (code : ResultCode) (r : GoReason),
        (Host.Outcome.next ((s.refuseGo (Arrival.ofOrigin o) r).replied o { code := code }) : Answer)
          = .next (refused code (BitVec.ofNat 8 r.ctorIdx)) := by intro code r; cases o <;> rfl
    refine ⟨fun hne hr => ?_, fun hn hheld => ?_, fun hn hheld hf => ?_, fun hn hheld hs => ?_,
      fun c f hheld h1 h2 hf hr => ?_⟩
    · refine (go_refused ha hw hh (r := .range) ?_).trans (posted _ _)
      rw [show optionalCue number = some number.toNat from if_neg hne]
      exact takeGo_range hr
    · refine (go_refused ha hw hh (r := .held) (takeGo_held ?_ hheld)).trans (posted _ _)
      intro n hn'
      unfold optionalCue at hn'
      rcases hn with rfl | hn
      · rw [if_pos rfl] at hn'; cases hn'
      · split at hn' <;> cases hn'; exact hn
    · refine boundary_replied (r := .go number) (s.post (goUnknownPost number.toNat)) ha hw hh ?_ (post_still _ _)
      rw [← post_placed]
      show State.takeGo _ (Arrival.ofOrigin o) (optionalCue number) = _
      rw [optionalCue_of_le hn]
      exact takeGo_unknown hn hheld hf
    · refine (go_refused ha hw hh (r := .noStandby) ?_).trans (posted _ _)
      rw [show optionalCue number = none from if_pos hn]
      exact takeGo_noStandby hheld hs
    · obtain ⟨hc, hn⟩ := goTarget_of_cases h1 h2
      have hr' : (s.onMsg fun m => m.placed o).guarded = true := guarded_of_recent hf (by cases o <;> exact hr)
      exact (go_refused ha hw hh (r := .guard) ((takeGo_found (s := s.onMsg fun m => m.placed o) hn hheld hc).trans
        (guardedFire_guard hr'))).trans (posted _ _)
  · obtain ⟨hc, hn⟩ := goTarget_of_cases h1 h2
    refine ⟨_, go_fires ha hw hh hheld hn hc hg, ?_, ?_⟩
    · have hf := fire_fired (s.onMsg fun m => m.placed o) c (Arrival.ofOrigin o)
      cases o <;> exact fired_answer hf _ _
    · rintro tag rfl
      let fired := (s.onMsg fun m => m.placed (.addressed tag)).fire c .message
      have hs : fired.msg.replies = _ := (replies_of_still (fire_still _ c .message)).1
      have hq : { place := s.msg.nextPlace, tag := tag, body := none, completedAt := 0, cellsSent := 0 } ∈ fired.msg.replies :=
        hs ▸ List.mem_append_right _ List.mem_cons_self
      refine ⟨_, answer_mem hq rfl _, rfl, rfl, ?_⟩
      rw [optCue_eq]
      rfl

end Sys2Proof.Machine

/-! SUPPORT. STANDBY, HALT, RESUME and the pause of the voices; and the messages that wait for a boundary. -/

namespace Sys2Proof.Machine

open Sys2Proof

/-! ### The pause of the voices (R127, R128) -/

/-- A voice that is paused by HELD (R127). -/
theorem voice_pause (r : Voice) : r.pause = if r.state = .playing ∨ (r.state = .stopping ∧ r.ending = .stopFade)
    then { r with state := .paused } else r := by
  unfold Voice.pause
  cases hs : r.state <;> cases he : r.ending <;> simp

/-- Under HELD each cue voice is paused, and no call voice is (R127). -/
theorem pauseVoices_held {s : State} (h : s.cue.held = true) :
    s.pauseVoices = s.onClip fun c => { c with
      voices := table fun v => if s.isCueVoice v then c.voices[v].pause else c.voices[v] } := by
  unfold State.pauseVoices
  rw [h, if_pos rfl]

/-- A voice that HELD pauses, and one that it does not (R127). -/
theorem pausedVoice_eq (s : State) (v : Fin 8) :
    (if s.isCueVoice v = true then s.clip.voices[v].pause else s.clip.voices[v])
      = if v.val < 8 - s.clip.reserve ∧ (s.clip.voices[v].state = .playing
            ∨ (s.clip.voices[v].state = .stopping ∧ s.clip.voices[v].ending = .stopFade))
        then { s.clip.voices[v] with state := .paused } else s.clip.voices[v] := by
  rw [voice_pause]
  unfold State.isCueVoice
  by_cases hv : v.val < 8 - s.clip.reserve
  · rw [if_pos (decide_eq_true hv)]
    simp only [hv, true_and]
  · rw [if_neg (by simpa using hv)]
    simp only [hv, false_and, if_false]

/-- The transport factor of a PAUSED voice comes to 0 within a frame (R127). -/
theorem factor_paused {r : Voice} (h : r.state = .paused) : (r.factor 47).toNat = 0 := by
  unfold Voice.factor
  rw [h]
  show (ramp r.factorEnd 0 47).toNat = 0
  have h48 : ((0 - (r.factorEnd : Int)) * ((47 : Nat) + 1)).tdiv 48 = 0 - (r.factorEnd : Int) :=
    Int.mul_tdiv_cancel _ (by decide)
  unfold ramp
  omega

/-- A PAUSED voice past its ramp stands still, whatever its level (R127). -/
theorem advances_paused {r : Voice} (h : r.state = .paused) (hf : r.factorEnd = 0) {g : Nat} :
    Voice.advances { state := r.state, playback := r.playback, position := r.position, ending := r.ending, pending := r.pending
                     gain := r.gain, gainEnd := g, factorEnd := r.factorEnd, cutFrom := r.cutFrom, cutElapsed := r.cutElapsed
                     ranOut := r.ranOut } = false := by
  simp [Voice.advances, h, hf]

/-- A frame of a PAUSED voice (R127). -/
theorem voiceAfter_paused {s : State} {v : Fin 8} (h : s.clip.voices[v].state = .paused) :
    (s.voiceAfter v).factorEnd = 0 ∧ (s.voiceAfter v).state = .paused
      ∧ (s.clip.voices[v].factorEnd = 0 → (s.voiceAfter v).position = s.clip.voices[v].position
        ∧ (s.voiceAfter v).ranOut = s.clip.voices[v].ranOut) := by
  have hi : s.clip.voices[v].state ≠ .idle := by rw [h]; decide
  unfold State.voiceAfter
  dsimp only
  rw [if_neg hi]
  refine ⟨factor_paused h, h, fun hf => ?_⟩
  rw [advances_paused h hf]
  dsimp only
  rw [if_neg Bool.false_ne_true, Bool.false_and, Bool.false_and, Bool.or_false]
  exact ⟨rfl, rfl⟩

/-! ### STANDBY, HALT, RESUME (R91, R107, R109) -/

/-- HALT, said for the state in which its message is placed. -/
theorem takeHalt_placed (s : State) (o : Origin) :
    takeHalt (s.onMsg fun m => m.placed o) = ({ code := .ok }, (s.hold false).onMsg fun m => m.placed o) := by
  unfold takeHalt State.hold
  cases hc : s.cue.held with
  | true => simp [hc]
  | false =>
    simp only [State.onMsg_cue, hc]
    exact congrArg _ (post_placed (s.onCue fun c => { c with held := true }) o (heldPost false))

/-- RESUME while no show-stop call is on air and HELD is SET: HELD is CLEAR and every PAUSED voice goes on. -/
def State.resumed (s : State) : State :=
  ((s.onCue fun e => { e with held := false }).onClip fun c =>
    { c with voices := table fun v => c.voices[v].unpause }).post resumedPost

theorem resumed_voice (s : State) (v : Fin 8) : s.resumed.clip.voices[v] = s.clip.voices[v].unpause := table_at _ v

/-- Whether a show-stop call is on air does not depend on the place a message has taken. -/
theorem not_onAir {s : State} (o : Origin) (h : s.stopIsOnAir = false) :
    ¬ (s.onMsg fun m => m.placed o).stopIsOnAir = true := by
  show ¬ s.stopIsOnAir = true
  rw [h]
  decide

/-- RESUME, said for the state in which its message is placed. -/
theorem takeResume_placed {s : State} (o : Origin) (hs : s.stopIsOnAir = false) (hh : s.cue.held = true) :
    takeResume (s.onMsg fun m => m.placed o) = ({ code := .ok }, s.resumed.onMsg fun m => m.placed o) := by
  unfold takeResume State.resumed
  rw [← post_placed, if_neg (not_onAir o hs), if_pos (show (s.onMsg fun m => m.placed o).cue.held = true from hh)]
  rfl

/-- Settles O27: the pause of the voices, and the three messages at and before their boundary. -/
theorem standbyHaltResume : Obligations.StandbyHaltResume := by
  refine ⟨fun s => ⟨fun h => ?_, fun h => ⟨_, pauseVoices_held h, fun v => (table_at _ v).trans (pausedVoice_eq s v)⟩,
    fun v h => voiceAfter_paused h⟩, fun o s hh => ⟨fun hb => ?_, fun ha hw number c hn hc => ?_, fun ha hw => ?_,
    fun ha hw hs => ?_, fun ha hw hs hheld => ?_, fun ha hw hs hheld => ?_⟩⟩
  · show s.pauseVoices = s
    unfold State.pauseVoices
    rw [h, if_neg (by decide)]
  · exact ⟨boundary_waits hb hh rfl, boundary_waits hb hh rfl, fun number => boundary_waits hb hh rfl⟩
  · refine boundary_replied (r := .standby number) (s.onCue fun e => { e with standby := some c.number }) ha hw hh ?_ rfl
    show takeStandby number _ = _
    unfold takeStandby
    rw [if_neg (show ¬ maxCueNumber < number.toNat from Nat.not_lt.mpr hn), show findCue (s.onMsg fun m => m.placed o).cue.cues number.toNat = some c from hc]
    rfl
  · refine boundary_replied (r := .halt) (s.hold false) ha hw hh (takeHalt_placed s o) ?_
    unfold State.hold
    split
    · rfl
    · exact post_still _ _
  · refine boundary_refused (r := .resume) ha hw hh (if_pos ?_)
    exact hs
  · refine boundary_replied (r := .resume) s ha hw hh ?_ rfl
    show takeResume _ = _
    unfold takeResume
    rw [if_neg (not_onAir o hs), show (s.onMsg fun m => m.placed o).cue.held = false from hheld, if_neg (by decide)]
  · exact ⟨s.resumed, boundary_replied (r := .resume) s.resumed ha hw hh (takeResume_placed o hs hheld) (post_still _ _), rfl,
      fun v => resumed_voice s v⟩

end Sys2Proof.Machine

/-! SUPPORT. The messages that wait for a boundary, and are taken there in the order in which they came. -/

namespace Sys2Proof.Machine

open Sys2Proof

/-! ### Taking what waits leaves nothing waiting -/

theorem takeGo_still (s : State) (a : Arrival) (n : Option Nat) : (s.takeGo a n).2.msg.still = s.msg.still := by
  have guarded : ∀ c, (s.guardedFire a c).2.msg.still = s.msg.still := by
    intro c
    unfold State.guardedFire
    split
    · exact refuseGo_still _ _ _
    · exact fire_still _ _ _
  unfold State.takeGo
  (repeat' split)
  · exact refuseGo_still _ _ _
  · exact refuseGo_still _ _ _
  · exact post_still _ _
  · exact guarded _
  · exact refuseGo_still _ _ _
  · exact guarded _

theorem hold_still (s : State) (b : Bool) : (s.hold b).msg.still = s.msg.still := by
  unfold State.hold
  split
  · rfl
  · exact post_still _ _

/-- A request taken at a boundary leaves the message controller but for its posts (R87, R124). -/
theorem takeRequest_still (o : Origin) (r : Request) (s : State) : (takeRequest o r s).2.msg.still = s.msg.still := by
  cases r with
  | go n => exact takeGo_still _ _ _
  | standby n =>
    show (takeStandby n s).2.msg.still = _
    unfold takeStandby
    (repeat' split) <;> rfl
  | halt => exact hold_still s false
  | resume =>
    show (takeResume s).2.msg.still = _
    unfold takeResume
    (repeat' split)
    · rfl
    · exact post_still _ _
    · rfl
  | voicePlay v c g l =>
    show (voicePlay v c g l s).2.msg.still = _
    unfold voicePlay
    split
    · (repeat' split)
      · rfl
      · rfl
      · rfl
      · exact congrArg Msg.still (playVoice_msg _ _ _ _)
    · rfl
  | voiceStop v d =>
    show (voiceStop v d s).2.msg.still = _
    unfold voiceStop
    (repeat' split)
    · exact stopVoice_still _ _ _ _ _
    · rfl
    · rfl
  | _ => rfl

theorem takeWaiting_waiting (s : State) (w : Waiting) : (s.takeWaiting w).msg.waiting = s.msg.waiting := by
  have h := congrArg Msg.waiting (takeRequest_still w.origin w.request s)
  unfold State.takeWaiting
  cases hp : w.place with
  | none => exact h
  | some p => exact h

/-- Once the requests of a boundary are taken, none waits (R87). -/
theorem takeRequests_waiting (s : State) : s.takeRequests.msg.waiting = [] :=
  foldl_keeps (fun t => t.msg.waiting) State.takeWaiting takeWaiting_waiting _ _

/-- CALL END and CALL CANCEL leave the requests that wait for the pass. -/
theorem takeRelayRequest_requests (s : State) (r : RelayRequest) : (s.takeRelayRequest r).relay.requests = s.relay.requests := by
  have answered : ∀ (t : State) (p : Option Nat) (x : Result), (t.answer p x).relay.requests = t.relay.requests := by
    intro t p x; cases p <;> rfl
  unfold State.takeRelayRequest
  dsimp only
  rw [answered]
  split
  · unfold callCancel
    split
    · rfl
    · dsimp only
      split <;> rfl
  · unfold callEnd
    split
    · rfl
    · split
      · rfl
      · rfl
      · rfl
      · unfold State.endOnAir
        dsimp only
        split <;> rfl

/-- Once the requests of a pass are taken, none waits (R138). -/
theorem relayRequests_requests (s : State) : s.relayRequests.relay.requests = [] :=
  foldl_keeps (fun t => t.relay.requests) State.takeRelayRequest takeRelayRequest_requests _ _

theorem takeWarmReset_resets (s : State) (w : Waiting) : (s.takeWarmReset w).msg.resets = s.msg.resets := by
  unfold State.takeWarmReset State.answerReset
  split <;> rfl

/-- Once the warm RESETs are taken, none waits (R187). -/
theorem warmResets_resets (s : State) : ∀ w ∈ s.warmResets.msg.resets, w.isWarm = false := by
  have h : s.warmResets.msg.resets = s.msg.resets.filter fun w => !w.isWarm :=
    foldl_keeps (fun t => t.msg.resets) State.takeWarmReset takeWarmReset_resets _ _
  intro w hw
  rw [h] at hw
  simpa using (List.mem_filter.mp hw).2

/-- The answers to the CALL ENDs and CALL CANCELs that a show reset refuses leave the waiting RESETs. -/
theorem resetCalls_resets (s : State) : s.resetCalls.msg.resets = s.msg.resets :=
  foldl_keeps (fun t => t.msg.resets) (fun (t : State) (r : RelayRequest) => t.answer r.place { code := .notFound })
    (fun _ r => by cases h : r.place <;> rfl) _ _

theorem takeShowReset_resets (s : State) (w : Waiting) : (s.takeShowReset w).msg.resets = s.msg.resets := by
  have h1 : s.showReset.msg.resets = s.msg.resets := by
    have hp := congrArg Msg.resets (post_still (s.resetCues.resetVoices.resetCalls).showPass showResetPost)
    refine Eq.trans hp ?_
    show (s.resetCues.resetVoices.resetCalls).msg.resets = _
    rw [resetCalls_resets, resetVoices_msg, resetCues_msg]
  unfold State.takeShowReset
  cases hp : w.place with
  | none => exact h1
  | some p => exact h1

/-- Once the show RESETs are taken, none waits (R187). -/
theorem showResets_resets (s : State) : ∀ w ∈ s.showResets.msg.resets, w.isWarm = true := by
  have h : s.showResets.msg.resets = s.msg.resets.filter Waiting.isWarm :=
    foldl_keeps (fun t => t.msg.resets) State.takeShowReset takeShowReset_resets _ _
  intro w hw
  rw [h] at hw
  exact (List.mem_filter.mp hw).2

/-! ### A message at its item comes after those that wait there -/

theorem atItem_of_frame {s t : State} {it : Item} (h : t.frame = s.frame) (ha : s.atItem it) : t.atItem it := by
  obtain ⟨-, -, -, hp, -, hd⟩ := (frame_iff t s).mp h
  obtain ⟨h1, h2, h3⟩ := ha
  exact ⟨hp.trans h1, hd ▸ h2, hd ▸ h3⟩

/-- The show resets remove items of the relay pass only (R155). -/
theorem takeShowReset_due (s : State) (w : Waiting) : (s.takeShowReset w).due = s.due.filter fun it => !isRelayItem it :=
  (takeShowReset_frame s w).2.2

/-- The show reset stays due through the show resets. -/
theorem showResets_atItem {s : State} (ha : s.atItem .showReset) : s.showResets.atItem .showReset := by
  obtain ⟨h1, h2, h3⟩ := ha
  obtain ⟨g1, -, g3⟩ := showResets_frame s
  have hd : ∀ (ws : List Waiting) (t : State), Item.showReset ∈ t.due → Item.showReset ∈ (ws.foldl State.takeShowReset t).due := by
    intro ws
    induction ws with
    | nil => exact fun t h => h
    | cons w ws ih =>
      intro t h
      refine ih _ ?_
      rw [takeShowReset_due]
      exact List.mem_filter.mpr ⟨h, by decide⟩
  exact ⟨((still_iff _ _).mp g1).2.2.2.trans h1, hd _ _ h2, fun x hx => h3 x (g3 x hx)⟩

/-- A message at its item does what it does once those that wait there are taken (log entry 6). -/
theorem awake_afterWaiting {s : State} {it : Item} {o : Origin} {r : Request} {take : Option Nat → State → State}
    (ha : s.atItem it) (hr : (runItem it s).atItem it) (hi : runItem it (runItem it s) = runItem it s) :
    (s.awake fun s => s.messageAt it o r take) = (runItem it s).awake fun s => s.messageAt it o r take := by
  have due : ∀ {t : State}, t.atItem it → t.isDue it = true := fun h => by simpa [State.isDue] using h.2.1
  rw [awake_next ha.1, awake_next hr.1]
  unfold State.messageAt
  rw [due ha, due hr, ready_of_none s it ha.2.2, ready_of_none _ it hr.2.2, if_pos rfl, if_pos rfl, hi]

/-- A request at its item does what it does once those that wait there are taken. -/
theorem boundary_afterWaiting {s : State} {o : Origin} {r : Request} (ha : s.atItem .requests) :
    (s.awake fun s => s.messageAtBoundary o r) = s.takeRequests.awake fun s => s.messageAtBoundary o r :=
  awake_afterWaiting (it := .requests) ha (atItem_of_frame (takeRequests_frame s) ha)
    (takeRequests_none _ (takeRequests_waiting s))

theorem pass_afterWaiting {s : State} {o : Origin} {r : Request} {cancel : Bool} {k : U16} (ha : s.atItem .relayRequests) :
    (s.awake fun s => s.messageAtPass o r cancel k) = s.relayRequests.awake fun s => s.messageAtPass o r cancel k :=
  awake_afterWaiting (it := .relayRequests) ha (atItem_of_frame (relayRequests_frame s) ha)
    (relayRequests_none _ (relayRequests_requests s))

/-! ### A message between boundaries waits -/

/-- CALL END and CALL CANCEL wait for the pass (R138). -/
theorem pass_waits {s : State} {o : Origin} {r : Request} {cancel : Bool} {k : U16} (hb : s.between) (hh : s.hears o)
    (hs : settling r = .pass cancel k.toNat) :
    (s.awake fun s => s.messageAtPass o r cancel k) = .next { s with
      msg := s.msg.placed o
      relay := { s.relay with
        requests := s.relay.requests ++ [{ cancel := cancel, id := k.toNat, place := s.msg.placeOf o }] } } := by
  rw [awake_next hb.1, State.messageAtPass, messageAt_between hb hh rfl, State.handOver, hs]
  rfl

/-- A RESET waits for its boundary (R187). -/
theorem reset_waits {s : State} {it : Item} {o : Origin} {r : Request} {take : Option Nat → State → State} (hb : s.between)
    (hh : s.hears o) (hm : isMeter it = false) (hs : settling r = .reset) :
    (s.awake fun s => s.messageAt it o r take) = .next { s with
      msg := { s.msg.placed o with
        resets := s.msg.resets ++ [{ origin := o, place := s.msg.placeOf o, request := r }] } } := by
  rw [awake_next hb.1, messageAt_between hb hh hm, State.handOver, hs]
  cases o <;> rfl

/-! ### A RESET of no known mode (R175, R187) -/

/-- A RESET of no known mode waits with the other requests of the boundary (log entry 19). -/
theorem settling_badReset {mode : U8} (h : 2 ≤ mode.toNat) : settling (.reset mode) = .boundary := if_pos h

/-- Settles O28: what waits, what comes after it, and the RESET of no known mode. -/
theorem waitingTakenFirst : Obligations.WaitingTakenFirst := by
  intro o s
  refine ⟨fun hb hh => ?_, fun ha => ⟨fun number => ⟨boundary_afterWaiting ha, boundary_afterWaiting ha⟩,
      boundary_afterWaiting ha, boundary_afterWaiting ha, fun voice clip gain loop => boundary_afterWaiting ha,
      fun voice frames => boundary_afterWaiting ha, takeRequests_waiting s⟩,
    fun ha => ⟨relayRequests_requests s, fun k => ⟨pass_afterWaiting ha, pass_afterWaiting ha⟩⟩,
    fun ha => ?_, fun ha => ?_, fun mode place hm => ?_⟩
  · intro waits awaitsPass awaitsReset
    exact ⟨fun voice clip gain loop => boundary_waits hb hh rfl, fun voice frames => boundary_waits hb hh rfl,
      fun k => ⟨pass_waits hb hh rfl, pass_waits hb hh rfl⟩, reset_waits hb hh rfl rfl, reset_waits hb hh rfl rfl⟩
  · exact awake_afterWaiting (it := .warmReset) ha (atItem_of_frame (warmResets_frame s) ha)
      (warmResets_none _ (warmResets_resets s))
  · exact awake_afterWaiting (it := .showReset) ha (showResets_atItem ha) (showResets_none _ (showResets_resets s))
  · intro bad
    refine ⟨fun hc => ?_, fun hw => ?_⟩
    · show s.executeCompleted = _
      have hd : dropped o (.reset mode) = false := not_dropped o rfl
      have hp : parseBody [24, mode] = .ok (.reset mode) := rfl
      unfold State.executeCompleted
      rw [hc]
      dsimp only
      rw [hp]
      dsimp only
      rw [hd, if_neg Bool.false_ne_true, State.handOver, settling_badReset hm]
      rfl
    · show s.takeRequests = _
      unfold State.takeRequests
      rw [hw]
      rfl

end Sys2Proof.Machine

/-! SUPPORT. The actions of a cue: which are performed and which are skipped, and what a MOVE does to its target. -/

namespace Sys2Proof.Machine

open Sys2Proof

/-! ### What a MOVE leaves outside the levels, the fades and the posts -/

/-- What no level, no fade and no post changes. -/
def State.aside (s : State) : Vector InputRecord 64 × List Call × List Clip × Link × Ports :=
  (s.inputs, s.relay.calls, s.clip.clips, s.link, s.ports)

theorem putCode_aside (s : State) (t : Target) (c : LevelCode) : (s.putCode t c).aside = s.aside := by cases t <;> rfl

theorem unstopTarget_aside (s : State) (t : Target) : (s.unstopTarget t).aside = s.aside := by cases t <;> rfl

theorem putFade_aside (s : State) (f : Fade) : (s.putFade f).aside = s.aside := by
  unfold State.putFade
  split
  · dsimp only
    split
    · exact putCode_aside _ _ _
    · exact putCode_aside _ _ _
  · exact putCode_aside _ _ _

theorem move_aside (s : State) (cue n : Nat) (t : Target) (c : LevelCode) (d : Nat) (sh : Shape) :
    (s.move cue n t c d sh).aside = s.aside := by
  unfold State.move
  split
  · rw [putCode_aside, unstopTarget_aside]; rfl
  · split
    · rw [unstopTarget_aside, putFade_aside]
    · rw [putCode_aside]; rfl

/-! ### Levels and fades through a MOVE -/

@[simp] theorem unstopTarget_fades (s : State) (t : Target) : (s.unstopTarget t).cue = s.cue := by cases t <;> rfl

theorem unstopTarget_fadeOf (s : State) (t u : Target) : (s.unstopTarget t).fadeOf u = s.fadeOf u := by
  simp [State.fadeOf]

/-- Taking a STOP fade off a voice leaves its gain code. -/
theorem unstop_gain (v : Voice) : v.unstop.gain = v.gain := by unfold Voice.unstop; split <;> rfl

theorem unstopTarget_setCode (s : State) (t u : Target) : (s.unstopTarget t).setCode u = s.setCode u := by
  cases t with
  | voiceGain v =>
    cases u with
    | voiceGain w =>
      by_cases h : v = w
      · subst h
        exact (congrArg Voice.gain (alter_same _ v _)).trans (unstop_gain _)
      · exact congrArg Voice.gain (alter_other _ v w _ h)
    | _ => rfl
  | _ => rfl

theorem putFade_setCode (s : State) (f : Fade) (u : Target) :
    (s.putFade f).setCode u = if u = f.target then f.endCode else s.setCode u := by
  have close : ∀ (t : State) (it : FollowItem), (t.closeItem it).setCode u = t.setCode u := by intro t it; cases u <;> rfl
  have fades : ∀ g : CueEngine → CueEngine, (s.onCue g).setCode u = s.setCode u := by intro g; cases u <;> rfl
  unfold State.putFade
  split
  · dsimp only
    split
    · rw [putCode_setCode, fades]
    · rw [close, putCode_setCode, fades]
  · rw [putCode_setCode, fades]

theorem putFade_length (s : State) (f : Fade) :
    (s.putFade f).cue.fades.length = if (s.fadeOf f.target).isSome then s.cue.fades.length else s.cue.fades.length + 1 := by
  have close : ∀ (t : State) (it : FollowItem), (t.closeItem it).cue.fades = t.cue.fades := fun _ _ => rfl
  unfold State.putFade
  cases s.fadeOf f.target with
  | none => rw [putCode_cue]; exact List.length_append
  | some old =>
    dsimp only
    split
    · rw [putCode_cue]; exact List.length_map _
    · rw [close, putCode_cue]; exact List.length_map _

/-- A MOVE gives its target the end code at once, and no other target another (R94, R102). -/
theorem move_setCode (s : State) (cue n : Nat) (t u : Target) (c : LevelCode) (d : Nat) (sh : Shape) :
    (s.move cue n t c d sh).setCode u = if u = t then c else s.setCode u := by
  have posted : ∀ p : Post, (s.post p).setCode u = s.setCode u := by intro p; cases u <;> rfl
  unfold State.move
  split
  · rw [putCode_setCode, unstopTarget_setCode, dropFade_setCode]
  · split
    · rw [unstopTarget_setCode, putFade_setCode]; rfl
    · rw [putCode_setCode, posted]

/-- The fades a MOVE leaves (R94, R103, R104). -/
theorem move_fadeOf (s : State) (cue n : Nat) (t u : Target) (c : LevelCode) (d : Nat) (sh : Shape) :
    (s.move cue n t c d sh).fadeOf u = if u = t ∧ (d = 0 ∨ s.fadeRoom t = true)
      then if d = 0 then none else some (s.freshFade t sh c d (some cue) n) else s.fadeOf u := by
  have posted : ∀ p : Post, (s.post p).fadeOf u = s.fadeOf u := fun _ => rfl
  unfold State.move
  by_cases hd : d = 0
  · rw [if_pos hd, putCode_fadeOf, unstopTarget_fadeOf, dropFade_fadeOf]
    simp [hd]
  · rw [if_neg hd]
    by_cases hr : s.fadeRoom t = true
    · rw [if_pos hr, unstopTarget_fadeOf, putFade_fadeOf]
      show (if u = t then some (s.freshFade t sh c d (some cue) n) else s.fadeOf u) = _
      simp [hd, hr]
    · rw [if_neg hr, putCode_fadeOf, posted]
      simp [hd, hr]

/-! ### Which actions are skipped (R94 to R96) -/

/-- A cue voice that keeps its side is below both reserves (R95, R125). -/
theorem playable_iff (s : State) (v : Fin 8) :
    (s.isCueVoice v && !s.changesSide v) = true ↔ v.val < 8 - max s.clip.reserve s.msg.node.reserve := by
  unfold State.isCueVoice State.changesSide
  simp only [Bool.and_eq_true, Bool.not_eq_true', decide_eq_true_eq, decide_eq_false_iff_not]
  omega

/-- A source and its spare agree (R96). -/
theorem sourcesAgree_iff (a b : Option Src) : sourcesAgree a b = true ↔ b = none ∨ (a ≠ none ∧ a ≠ b) := by
  cases b with
  | none => simp [sourcesAgree]
  | some x => cases a <;> simp [sourcesAgree]

/-- A MOVE of a target that a cue may move is performed (R94). -/
theorem perform_move {s : State} {cue serial : Nat} {t : Target} {c : LevelCode} {d : Nat} {sh : Shape}
    (h : ∀ v : Fin 8, t = .voiceGain v → v.val < 8 - s.msg.node.reserve
      ∧ (Config.callVoiceSkips = true → v.val < 8 - s.clip.reserve)) :
    s.perform cue serial (.move t c d sh) = .ok (s.move cue serial t c d sh) := by
  have hr : s.targetReserved t = false := by
    cases t with
    | voiceGain v =>
      obtain ⟨h1, h2⟩ := h v rfl
      have h1' : ¬ 8 - s.msg.node.reserve ≤ v.val := Nat.not_le.mpr h1
      unfold State.targetReserved
      cases hc : Config.callVoiceSkips with
      | false => simp [h1']
      | true => simp [h1', Nat.not_le.mpr (h2 hc)]
    | _ => rfl
  show (if s.targetReserved t then _ else _) = _
  rw [hr]
  rfl

/-- A target whose fade is taken over, or for which there is no room. -/
theorem fadeRoom_of_some {s : State} {t : Target} {old : Fade} (h : s.fadeOf t = some old) : s.fadeRoom t = true := by
  unfold State.fadeRoom; rw [h]; rfl

theorem fadeRoom_of_none {s : State} {t : Target} (h : s.fadeOf t = none) :
    s.fadeRoom t = decide (s.cue.fades.length < 256) := by
  unfold State.fadeRoom; rw [h]; rfl

/-- A MOVE with frames and room in the table posts nothing and takes the fade in. -/
theorem move_room {s : State} {cue n : Nat} {t : Target} {c : LevelCode} {d : Nat} {sh : Shape} (hd : d ≠ 0)
    (hr : s.fadeRoom t = true) :
    s.move cue n t c d sh = (s.putFade (s.freshFade t sh c d (some cue) n)).unstopTarget t := by
  unfold State.move
  rw [if_neg hd, if_pos hr]

/-- Settles O29: how the actions of a cue follow one another, and each action. -/
theorem actionsOfACue : Obligations.ActionsOfACue := by
  intro s cue serial position rest
  refine ⟨rfl, fun a u h => ?_, fun a r h => ?_, fun v clip gain loop => ?_, fun v frames => ?_, fun i a b => ?_,
    fun zones priority clip ack repeats => ?_, fun v code frames sh h => ?_, fun target code frames sh h => ?_⟩
  · rw [State.performAll, h]
  · intro after
    rw [State.performAll, h]
    rfl
  · intro low
    have play : ∀ b, (s.isCueVoice v && !s.changesSide v) = b → s.perform cue serial (.play v clip gain loop)
        = if b then if (s.storedClip clip).isSome then
            .ok (s.playVoice v { clip := clip, loop := loop, owner := .cue cue, serial := serial } gain)
          else .error .clipMissing else .error .voiceReserved := by
      rintro b rfl; rfl
    refine ⟨fun hv => ?_, fun hv hn => ?_, fun hv hn => ?_⟩
    · have hf : (s.isCueVoice v && !s.changesSide v) = false := by
        rw [← Bool.not_eq_true, playable_iff]; exact Nat.not_lt.mpr hv
      exact play false hf
    · rw [play true ((playable_iff s v).mpr hv), if_pos rfl, hn]
      rfl
    · rw [play true ((playable_iff s v).mpr hv), if_pos rfl, if_pos (Option.isSome_iff_ne_none.mpr hn)]
  · show (if s.isCueVoice v = true then _ else _) = _
    unfold State.isCueVoice
    simp only [decide_eq_true_eq]
  · show (if sourcesAgree a b = true then _ else _) = _
    simp only [sourcesAgree_iff]
  · intro c
    refine ⟨fun hc => ?_, fun code hc => ?_⟩
    · show (match s.callRefusal c with | some code => _ | none => _) = _
      rw [hc]
    · show (match s.callRefusal c with | some code => _ | none => _) = _
      rw [hc]
  · have hr : s.targetReserved (.voiceGain v) = true := by
      unfold State.targetReserved
      simpa using h
    exact if_pos hr
  · refine ⟨_, perform_move h, ?_⟩
    have ha := move_aside s cue serial target code frames sh
    have hk := move_core s cue serial target code frames sh
    simp only [State.aside, CueEngine.core, Prod.mk.injEq] at ha hk
    obtain ⟨a1, a2, a3, a4, a5⟩ := ha
    refine ⟨(move_setCode ..).trans (if_pos rfl), fun w hw => ⟨(move_setCode ..).trans (if_neg hw),
      (move_fadeOf ..).trans (if_neg fun hx => hw hx.1)⟩, a1, a2, a3, a4, a5, hk.1, hk.2.2.2.2.1, move_closes .., fun hd => ⟨?_, ?_⟩,
      fun old hd ho => ⟨?_, ?_, ?_⟩, fun hd ho hl => ⟨?_, ?_, ?_⟩, fun hd ho hl => ⟨?_, ?_, ?_⟩⟩
    · rw [move_fadeOf, if_pos ⟨rfl, .inl hd⟩, if_pos hd]
    · unfold State.move
      rw [if_pos hd, putCode_msg, unstopTarget_msg]
      rfl
    · rw [move_room hd (fadeRoom_of_some ho), unstopTarget_fades, putFade_length]
      simp [State.freshFade, ho]
    · rw [move_room hd (fadeRoom_of_some ho), unstopTarget_msg, putFade_msg]
    · rw [move_fadeOf, if_pos ⟨rfl, .inr (fadeRoom_of_some ho)⟩, if_neg hd]
      cases sh <;> simp [State.freshFade, State.lastGain, ho]
    · have hr : s.fadeRoom target = true := (fadeRoom_of_none ho).trans (decide_eq_true hl)
      rw [move_room hd hr, unstopTarget_fades, putFade_length]
      simp [State.freshFade, ho]
    · have hr : s.fadeRoom target = true := (fadeRoom_of_none ho).trans (decide_eq_true hl)
      rw [move_room hd hr, unstopTarget_msg, putFade_msg]
    · have hr : s.fadeRoom target = true := (fadeRoom_of_none ho).trans (decide_eq_true hl)
      rw [move_fadeOf, if_pos ⟨rfl, .inr hr⟩, if_neg hd]
      cases sh <;> simp [State.freshFade, State.lastGain, ho]
    · have hr : ¬ s.fadeRoom target = true := by rw [fadeRoom_of_none ho]; simpa using hl
      rw [move_fadeOf, if_neg fun hx => hx.2.elim hd hr]
      exact ho
    · have hr : ¬ s.fadeRoom target = true := by rw [fadeRoom_of_none ho]; simpa using hl
      unfold State.move
      rw [if_neg hd, if_neg hr, putCode_cue]
      rfl
    · have hr : ¬ s.fadeRoom target = true := by rw [fadeRoom_of_none ho]; simpa using hl
      unfold State.move
      rw [if_neg hd, if_neg hr, putCode_msg]
      rfl

end Sys2Proof.Machine

/-! SUPPORT. The fades from frame to frame and at their end, and the follow timer. -/

namespace Sys2Proof.Machine

open Sys2Proof

/-! ### A fade in a frame (R105) -/

/-- A fade counts its frames while HELD is CLEAR (R105). -/
theorem advance_held (f : Fade) : f.advance true = f := by
  unfold Fade.advance; simp

theorem advance_clear (f : Fade) :
    f.advance false = if f.elapsed < f.frames then { f with elapsed := f.elapsed + 1 } else f := by
  unfold Fade.advance
  by_cases h : f.elapsed < f.frames
  · rw [if_pos h, if_neg (by simpa using h)]
  · rw [if_neg h, if_pos (by simpa using h)]

/-- Of the cue engine the end of a frame changes the elapsed frames of the fades only (R105). -/
theorem closeFrame_cue (s : State) :
    s.closeFrame.cue = { s.cue with fades := s.cue.fades.map (Fade.advance s.cue.held) } := by
  unfold State.closeFrame; rfl

/-- A target's live gain while it has a fade. -/
theorem liveGain_fade {s : State} {t : Target} {f : Fade} (h : s.fadeOf t = some f) (n : Nat) :
    s.liveGain t n = f.live s.cue.held n := by
  unfold State.liveGain; rw [h]

/-! ### A fade that completes (R105, R122) -/

/-- The target of a fade at rest, its record gone. -/
def State.rested (s : State) (t : Target) (c : LevelCode) : State := (s.dropFade t).putCode t c

theorem rested_fadeOf (s : State) (t u : Target) (c : LevelCode) :
    (s.rested t c).fadeOf u = if u = t then none else s.fadeOf u := by
  rw [State.rested, putCode_fadeOf, dropFade_fadeOf]

theorem rested_setCode (s : State) (t u : Target) (c : LevelCode) :
    (s.rested t c).setCode u = if u = t then c else s.setCode u := by
  rw [State.rested, putCode_setCode, dropFade_setCode]

theorem rested_closes (s : State) (t : Target) (c : LevelCode) : s.itemsClosed (s.rested t c) fun _ x => x == .fade t := by
  unfold State.itemsClosed State.rested
  rw [putCode_cue]
  exact dropFade_closes s t

/-- Outside the levels, the fades and the follow, a target at rest leaves the cue engine and the rest of the node. -/
theorem rested_keeps (s : State) (t : Target) (c : LevelCode) :
    (s.rested t c).cue.cues = s.cue.cues ∧ (s.rested t c).cue.standby = s.cue.standby ∧ (s.rested t c).cue.held = s.cue.held
      ∧ (s.rested t c).inputs = s.inputs ∧ (s.rested t c).msg = s.msg ∧ (s.rested t c).link = s.link
      ∧ (s.rested t c).ports = s.ports ∧ (s.rested t c).due = s.due := by
  cases t <;> exact ⟨rfl, rfl, rfl, rfl, rfl, rfl, rfl, rfl⟩

/-- The voice whose gain comes to rest is otherwise as it was. -/
theorem rested_voice (s : State) (v : Fin 8) (c : LevelCode) :
    (s.rested (.voiceGain v) c).clip.voices[v] = { s.clip.voices[v] with gain := c } :=
  alter_same s.clip.voices v _

/-- The end of a playback leaves every set code but that of its voice. -/
theorem voiceEnded_setCode {s t : State} {v : Fin 8} {cause : EndCause} (h : s.voiceEnded t v cause) {u : Target}
    (hu : u ≠ .voiceGain v) : t.setCode u = s.setCode u := by
  obtain ⟨-, hv, -, -, -, -, -, -, -, -, -, -, -, hz, -, hm, -⟩ := h
  cases u with
  | crosspoint i b => exact congrArg (fun m : Mix => m.crosspoints[i][b]) hm
  | busGain b => exact congrArg (fun m : Mix => m.buses[b].entry.gain) hm
  | zoneLevel z => exact congrArg (fun zs : Vector Zone 16 => zs[z].entry.level) hz
  | voiceGain w => exact congrArg Voice.gain (hv w fun e => hu (congrArg Target.voiceGain e))

/-- A STOP fade that completes has its voice silent and its target at its end code (R122). -/
theorem stopFade_completes {s : State} {v : Fin 8} {f : Fade} (hp : s.clip.voices[v].pending = none) :
    let r := s.rested (.voiceGain v) f.endCode
    let t := r.endVoice v .ended
    t.fadeOf (.voiceGain v) = none ∧ t.setCode (.voiceGain v) = f.endCode ∧ t.clip.voices[v].state = .idle
      ∧ t.clip.voices[v].playback = none := by
  intro r t
  obtain ⟨hv, -⟩ := endVoice_ended r v .ended
  have hr : r.endedVoice v = { state := .idle, playback := none, position := 0, ending := .none, pending := none
                               gain := f.endCode, gainEnd := s.clip.voices[v].gainEnd, factorEnd := s.clip.voices[v].factorEnd
                               cutFrom := Config.unity, cutElapsed := 0, ranOut := false } := by
    unfold State.endedVoice
    rw [rested_voice]
    dsimp only
    rw [hp]
  refine ⟨?_, ?_, ?_, ?_⟩
  · have hl : (r.leaveVoice v).fadeOf (.voiceGain v) = none := by
      have hn : r.fadeOf (.voiceGain v) = none := (rested_fadeOf ..).trans (if_pos rfl)
      have hpr : r.clip.voices[v].pending = none := by rw [rested_voice]; exact hp
      unfold State.leaveVoice
      dsimp only
      rw [hpr]
      dsimp only
      split
      · exact (dropFade_fadeOf r _ _).trans (if_pos rfl)
      · exact hn
    show (r.endVoice v .ended).fadeOf (.voiceGain v) = none
    unfold State.endVoice
    split
    · next p _ =>
      have hk := (reportEnd_keeps (r.leaveVoice v) v p .ended).2.2.2.2.2.2.2.2.2.1
      unfold State.fadeOf
      rw [hk]
      exact hl
    · exact hl
  · exact congrArg Voice.gain (hv.trans hr)
  · exact congrArg Voice.state (hv.trans hr)
  · exact congrArg Voice.playback (hv.trans hr)

/-- A fade that has computed its last frame completes (R105). -/
theorem completeTarget_done {s : State} {t : Target} {f : Fade} (h : s.fadeOf t = some f) (hd : f.frames ≤ f.elapsed) :
    s.completeTarget t = s.completeFade f := by
  unfold State.completeTarget
  rw [h]
  exact if_pos (decide_eq_true hd)

/-- A fade of a target whose end ends no playback only brings it to rest (R105). -/
theorem completeFade_rested {s : State} {f : Fade} (h : ∀ v, f.target = .voiceGain v → s.clip.voices[v].ending ≠ .stopFade) :
    s.completeFade f = s.rested f.target f.endCode := by
  unfold State.completeFade
  split
  · next v hv => exact if_neg (h v hv)
  · rfl

/-- A STOP fade that completes ends its voice (R122). -/
theorem completeFade_stop {s : State} {f : Fade} {v : Fin 8} (hf : f.target = .voiceGain v)
    (h : s.clip.voices[v].ending = .stopFade) :
    s.completeFade f = (s.rested (.voiceGain v) f.endCode).endVoice v .ended := by
  unfold State.completeFade
  rw [hf]
  exact if_pos h

/-- Settles O30: the fades in a frame, and the end of one. -/
theorem fadeCompletes : Obligations.FadeCompletes := by
  refine ⟨fun s => ⟨fun h => ?_, fun h => ?_, fun target f n hf => ⟨fun h he => ?_, fun h he => ?_, fun k h he => ?_⟩⟩,
    fun target f s ha hf hd hp => ?_⟩
  · rw [closeFrame_cue, h, List.map_congr_left fun f _ => advance_held f, List.map_id']
  · rw [closeFrame_cue, h, List.map_congr_left fun f _ => advance_clear f]
  · rw [liveGain_fade hf, h]
    exact if_neg (by simpa using he)
  · rw [liveGain_fade hf, h]
    show f.lastGain = _
    unfold Fade.lastGain
    rw [he]
    rfl
  · rw [liveGain_fade hf, h]
    show f.lastGain = _
    unfold Fade.lastGain
    rw [he]
  · have ht : f.target = target := fadeOf_target hf
    subst ht
    refine ⟨s.completeTarget f.target, stepIn_next ha (by simp [hf, Fade.done, hd]), ?_⟩
    rw [completeTarget_done hf hd]
    by_cases hs : ∃ v, f.target = .voiceGain v ∧ s.clip.voices[v].ending = .stopFade
    · obtain ⟨v, hv, he⟩ := hs
      rw [completeFade_stop hv he, hv]
      obtain ⟨h1, h2, h3, h4⟩ := stopFade_completes (f := f) (hp v hv he)
      have hve := endVoice_ended (s.rested (.voiceGain v) f.endCode) v .ended
      have hcl := endVoice_closes (s.rested (.voiceGain v) f.endCode) v .ended
      obtain ⟨k1, k2, k3, k4, k5, k6, k7, k8⟩ := rested_keeps s (.voiceGain v) f.endCode
      obtain ⟨-, -, -, hfo, c1, c2, c3, -, -, -, -, -, -, -, i1, -, m1, l1, p1, d1⟩ := id hve
      refine ⟨h1, h2, fun u hu => ⟨?_, ?_⟩, ?_, ?_, c1.trans k1, c2.trans k2, c3.trans k3, i1.trans k4, m1.trans k5,
        l1.trans k6, p1.trans k7, d1.trans k8⟩
      · exact (hfo u hu).trans ((rested_fadeOf ..).trans (if_neg hu))
      · exact (voiceEnded_setCode hve hu).trans ((rested_setCode ..).trans (if_neg hu))
      · intro w hw _
        cases hw
        exact ⟨h3, h4⟩
      · refine itemsClosed_congr (itemsClosed_trans (rested_closes s (.voiceGain v) f.endCode) hcl fun _ _ _ => rfl)
          fun fl _ x => ?_
        have hb : (s.clip.voices[v].ending == .stopFade) = true := beq_iff_eq.mpr he
        dsimp only
        rw [rested_voice, hb, Bool.true_and]
        rfl
    · have hne : ∀ v, f.target = .voiceGain v → s.clip.voices[v].ending ≠ .stopFade := fun v hv he => hs ⟨v, hv, he⟩
      rw [completeFade_rested hne]
      obtain ⟨k1, k2, k3, k4, k5, k6, k7, k8⟩ := rested_keeps s f.target f.endCode
      refine ⟨(rested_fadeOf ..).trans (if_pos rfl), (rested_setCode ..).trans (if_pos rfl),
        fun u hu => ⟨(rested_fadeOf ..).trans (if_neg hu), (rested_setCode ..).trans (if_neg hu)⟩,
        fun v hv he => absurd he (hne v hv), ?_, k1, k2, k3, k4, k5, k6, k7, k8⟩
      refine itemsClosed_congr (rested_closes s f.target f.endCode) fun fl _ x => ?_
      cases ht : f.target with
      | voiceGain v =>
        have hb : (s.clip.voices[v].ending == .stopFade) = false := beq_eq_false_iff_ne.mpr (hne v ht)
        dsimp only
        rw [hb, Bool.false_and, Bool.or_false]
      | _ => exact (Bool.or_false _).symm

/-! ### The follow timer (R98, R99) -/

/-- The timer of a follow steps when it runs, after the boundary that set it, and HELD is CLEAR (R98). -/
theorem stepFollow_eq {s : State} {f : Follow} (h : s.cue.follow = some f) :
    s.stepFollow = if f.timing = true ∧ f.since < s.boundaries ∧ s.cue.held = false then
        if f.remaining ≤ 1 then s.expireFollow
        else s.onCue fun e => { e with follow := some { f with remaining := f.remaining - 1 } }
      else s := by
  unfold State.stepFollow
  rw [h]

/-- Settles O31: the start of the timer, its steps, and its end. -/
theorem followTimer : Obligations.FollowTimer := by
  intro f s hf
  have runs : ∀ {t : State}, t.cue.follow = some f → f.timing = true → f.since < t.boundaries → t.cue.held = false →
      f.remaining ≤ 1 → t.stepFollow = t.expireFollow := fun h ht hs hh hr =>
    (stepFollow_eq h).trans ((if_pos ⟨ht, hs, hh⟩).trans (if_pos hr))
  have expires : s.atItem .follow → s.cue.held = false → f.timing = true → f.since < s.boundaries → f.remaining ≤ 1 →
      exec .followExpiry s = .next (s.without .follow).expireFollow := by
    intro ha hh ht hs hr
    refine (stepIn_next ha (by simp [hf, hh, ht, hs, hr])).trans ?_
    rw [runDue_atItem ha]
    exact congrArg _ (runs (t := s.without .follow) hf ht hs hh hr)
  refine ⟨fun ha ht hi => ?_, fun ht hs hh hr => ?_, fun h => ?_, fun ha hh ht hs hr hn => ?_, fun c ha hh ht hs hr hc => ?_⟩
  · refine (stepIn_next ha (by simp [hf, ht, hi])).trans (congrArg _ ?_)
    unfold State.startTiming
    rw [hf]
    exact if_pos ⟨ht, hi⟩
  · exact (stepFollow_eq hf).trans ((if_pos ⟨ht, hs, hh⟩).trans (if_neg (Nat.not_le.mpr hr)))
  · refine (stepFollow_eq hf).trans (if_neg ?_)
    rintro ⟨h1, h2, h3⟩
    rcases h with h | h | h
    · rw [h] at h1; cases h1
    · omega
    · rw [h] at h3; cases h3
  · refine (expires ha hh ht hs hr).trans (congrArg _ ?_)
    unfold State.expireFollow State.standbyCue
    dsimp only
    rw [show ((s.without .follow).onCue fun e => { e with follow := none }).cue.standby = none from hn]
    rfl
  · refine ⟨_, expires ha hh ht hs hr, ?_⟩
    unfold State.expireFollow
    dsimp only
    rw [show ((s.without .follow).onCue fun e => { e with follow := none }).standbyCue = some c from hc]
    exact fire_fired ((s.without .follow).onCue fun e => { e with follow := none }) c .follow

end Sys2Proof.Machine

/-! SUPPORT. The ends of playbacks, the reserve, captures and the removal of clips. -/

namespace Sys2Proof.Machine

open Sys2Proof

/-! ### The ends of playbacks (R119, R121, R126) -/

/-- A voice that is over has its playback ended, with the cause its ending gives. -/
theorem endIfOver_ended {s : State} {v : Fin 8} (h : s.clip.voices[v].over = true) :
    s.voiceEnded (s.endIfOver v) v s.clip.voices[v].endCause := by
  unfold State.endIfOver
  dsimp only
  rw [if_pos h]
  exact endVoice_ended s v _

/-- A voice is over when it is busy and has run out, cut out, or been cut. -/
theorem voice_over {r : Voice} (hi : r.state ≠ .idle)
    (h : r.ranOut = true ∨ (r.ending = .cutOut ∧ 4 ≤ r.cutElapsed) ∨ r.ending = .callCut) : r.over = true := by
  have hb : (r.state != .idle) = true := bne_iff_ne.mpr hi
  unfold Voice.over
  rw [hb, Bool.true_and]
  rcases h with h | ⟨h, hc⟩ | h
  · rw [h]; rfl
  · have : r.cutOver = true := by simp [Voice.cutOver, h, Config.cutOutFrames, hc]
    rw [this, Bool.or_true]; rfl
  · have : r.stopOver = true := by simp [Voice.stopOver, h]
    rw [this, Bool.or_true]

/-- Settles O32: each of the three ends is the end of a voice that is over. -/
theorem playbacksEnd : Obligations.PlaybacksEnd := by
  intro v s ha hi
  refine ⟨fun he hc => ?_, fun he hr => ?_, fun he => ?_⟩
  · have ho : s.clip.voices[v].over = true := voice_over hi (hc.elim (fun h => .inr (.inl ⟨he, h⟩)) .inl)
    have hk := endIfOver_ended ho
    rw [Voice.endCause, if_neg (by rw [he]; decide)] at hk
    have hb : (s.clip.voices[v].ending == .cutOut && s.clip.voices[v].over) = true := by
      rw [ho, he]; rfl
    exact ⟨_, stepIn_next ha hb, hk⟩
  · have ho : s.clip.voices[v].over = true := voice_over hi (.inl hr)
    have hk := endIfOver_ended ho
    have h1 : s.clip.voices[v].ending ≠ .callCut := by rcases he with he | he <;> rw [he] <;> decide
    rw [Voice.endCause, if_neg h1] at hk
    have hb : (s.clip.voices[v].ending != .cutOut && s.clip.voices[v].ending != .callCut && s.clip.voices[v].over) = true := by
      rw [ho]; rcases he with he | he <;> rw [he] <;> rfl
    exact ⟨_, stepIn_next ha hb, hk⟩
  · have ho : s.clip.voices[v].over = true := voice_over hi (.inr (.inr he))
    have hk := endIfOver_ended ho
    rw [Voice.endCause, if_pos he] at hk
    have hb : (s.clip.voices[v].ending == .callCut && s.clip.voices[v].over) = true := by rw [ho, he]; rfl
    exact ⟨_, stepIn_next ha hb, hk⟩

/-! ### The reserve (R125) -/

/-- The change is free when every voice between the two reserves is. -/
theorem reserveFree_of {s : State} (h : ∀ v : Fin 8, 8 - max s.clip.reserve s.msg.node.reserve ≤ v.val →
    v.val < 8 - min s.clip.reserve s.msg.node.reserve →
    s.clip.voices[v].state = .idle ∧ s.clip.voices[v].pending = none) : s.reserveFree = true := by
  unfold State.reserveFree
  refine List.all_eq_true.mpr fun v _ => ?_
  cases hc : s.changesSide v with
  | false => rfl
  | true =>
    unfold State.changesSide at hc
    obtain ⟨h1, h2⟩ := h v (of_decide_eq_true hc).1 (of_decide_eq_true hc).2
    rw [h1, h2]
    rfl

/-- Settles O33, by the voices that change side. -/
theorem reserveChanges : Obligations.ReserveChanges := by
  intro s ha hne hfree
  have hf : s.reserveFree = true := reserveFree_of hfree
  have hb : (s.clip.reserve != s.msg.node.reserve && s.reserveFree) = true := by
    rw [hf, Bool.and_true]; exact bne_iff_ne.mpr hne
  refine (stepIn_next ha hb).trans (congrArg _ ?_)
  rw [runDue_atItem ha]
  exact if_pos hf

/-! ### CAPTURE (R114) -/

/-- CAPTURE of a clip or a source that there is not. -/
theorem startCapture_range {clip : U8} {source : RawSource} {length : U32}
    (h : clip = 0 ∨ 128 < clip.toNat ∨ checkCaptureSource source = none) (s : State) :
    startCapture clip source length s = refuse .range s := by
  have hid : clip = 0 ∨ 128 < clip.toNat → clipId clip = none := by
    intro h
    unfold clipId
    rw [if_neg]
    rintro ⟨h1, h2⟩
    rcases h with rfl | h
    · exact absurd h1 (by decide)
    · exact absurd h2 (Nat.not_le.mpr h)
  unfold startCapture
  by_cases hc : clip = 0 ∨ 128 < clip.toNat
  · rw [hid hc]
  · have hs : checkCaptureSource source = none := by
      rcases h with h | h | h
      · exact absurd (.inl h) hc
      · exact absurd (.inr h) hc
      · exact h
    rw [hs]
    cases clipId clip <;> rfl

/-- CAPTURE of a clip and a source that there are: the checks in their order. -/
theorem startCapture_eq {clip : U8} {source : RawSource} {length : U32} {k : Nat} {src : Src} (hk : clipId clip = some k)
    (hs : checkCaptureSource source = some src) (s : State) :
    startCapture clip source length s =
      if s.clip.capture.isSome then refuse .busy s
      else if (s.clip.clips.any fun c => c.id == k) then refuse .inUse s
      else if s.freeMemory < clampTo Config.minClip Config.clipMemory length.toNat then refuse .noSpace s
      else
        ({ code := .ok
           data := bytes4 (clampTo Config.minClip Config.clipMemory length.toNat)
             ++ bytes4 ((clampTo Config.minClip Config.clipMemory length.toNat + 47) / 48)
             ++ bytes4 (s.freeMemory - clampTo Config.minClip Config.clipMemory length.toNat) },
          s.onClip fun c => { c with
            clips := c.clips ++ [{ id := k, length := clampTo Config.minClip Config.clipMemory length.toNat, stored := false
                                   samples := [] }]
            capture := some { running := false, clip := k, source := src
                              length := clampTo Config.minClip Config.clipMemory length.toNat, count := 0 } }) := by
  unfold startCapture
  rw [hk, hs]

/-- Some clip record has the id. -/
theorem any_clip {cs : List Clip} {k : Nat} : (cs.any fun c => c.id == k) = true ↔ ∃ c ∈ cs, c.id = k := by
  simp [List.any_eq_true]

/-! ### A capture at its boundary (R115, R116) -/

/-- A frame's samples that a capture takes, as many as it still wants. -/
theorem storeFrame_eq (s : State) (c : Capture) :
    s.storeFrame c = s.onClip fun p => { p with
      capture := some { c with running := true, count := c.count + min 48 (c.length - c.count) }
      clips := p.clips.map fun d => if d.id = c.clip then
        { d with samples := d.samples
            ++ ((s.captureBlock c.source).toList.map toSample).take (min 48 (c.length - c.count)) } else d } := by
  have hl : (((s.captureBlock c.source).toList.map toSample).take (min 48 (c.length - c.count))).length
      = min 48 (c.length - c.count) := by
    rw [List.length_take, List.length_map, Vector.length_toList, Nat.min_assoc, Nat.min_comm _ 48, ← Nat.min_assoc, Nat.min_self]
  unfold State.storeFrame
  dsimp only
  rw [hl]

/-- A capture that is not full. -/
theorem not_full {c : Capture} (h : c.running = false ∨ c.count ≠ c.length) : c.full = false := by
  unfold Capture.full
  rcases h with h | h
  · rw [h]; rfl
  · rw [beq_eq_false_iff_ne.mpr h, Bool.and_false]

/-- The block that a capture takes from a source that is not a voice. -/
theorem captureBlock_eq {s : State} {src : Src} {block : Block} (h1 : ∀ i, src = .link i → block = s.link.slots[i])
    (h2 : ∀ n, src = .localIn n → block = s.ports.localIn[n]) (h3 : ∀ v, src ≠ .voice v) : s.captureBlock src = block := by
  cases src with
  | link i => exact (h1 i rfl).symm
  | localIn n => exact (h2 n rfl).symm
  | voice v => exact absurd rfl (h3 v)

/-- A capture in progress at its boundary. -/
theorem stepCapture_eq {s : State} {c : Capture} (h : s.clip.capture = some c) :
    s.stepCapture = if c.full then s.completeCapture c
      else if s.sourceValid c.source then s.storeFrame c else s.abortCapture c .gap := by
  unfold State.stepCapture
  rw [h]

/-- The report of a link loss aborts a capture from a LINK slot and no other (R116, R170). -/
theorem lossToCapture_eq {s : State} {c : Capture} (h : s.clip.capture = some c) :
    s.lossToCapture = if c.fromLink then s.abortCapture c .link else s := by
  unfold State.lossToCapture
  rw [h]

/-- Settles O34: the checks of CAPTURE, a capture at its boundary, and its end. -/
theorem capturesArmAndComplete : Obligations.CapturesArmAndComplete := by
  refine ⟨fun o clip source length s hb hh h => now_refused hb hh (not_dropped o rfl) rfl (startCapture_range h _),
    fun o clip source length k src s hb hh hk hs => ?_, fun c s hc => ?_, fun c s ha hc hr hl => ?_⟩
  · intro l free
    have hd := not_dropped o (r := .capture clip source length) rfl
    have hset := startCapture_eq (length := length) hk hs (s.onMsg fun m => m.placed o)
    have some_iff : ¬ (s.clip.capture.isSome = true) ↔ s.clip.capture = none := by
      rw [Bool.not_eq_true, Option.isSome_eq_false_iff, Option.isNone_iff_eq_none]
    refine ⟨fun hc => ?_, fun hc hu => ?_, fun hc hu hf => ?_, fun hc hu hf => ?_⟩
    · exact now_refused hb hh hd rfl (hset.trans (if_pos (Option.isSome_iff_ne_none.mpr hc)))
    · exact now_refused hb hh hd rfl (hset.trans ((if_neg (some_iff.mpr hc)).trans (if_pos (any_clip.mpr hu))))
    · have hu' : ¬ (s.clip.clips.any fun c => c.id == k) = true := fun h => by
        obtain ⟨c, hc, he⟩ := any_clip.mp h; exact hu c hc he
      exact now_refused hb hh hd rfl (hset.trans ((if_neg (some_iff.mpr hc)).trans ((if_neg hu').trans (if_pos hf))))
    · have hu' : ¬ (s.clip.clips.any fun c => c.id == k) = true := fun h => by
        obtain ⟨c, hc, he⟩ := any_clip.mp h; exact hu c hc he
      exact now_replied (s.onClip fun c => { c with
          clips := c.clips ++ [{ id := k, length := l, stored := false, samples := [] }]
          capture := some { running := false, clip := k, source := src, length := l, count := 0 } }) hb hh hd rfl
        (hset.trans ((if_neg (some_iff.mpr hc)).trans ((if_neg hu').trans (if_neg (Nat.not_lt.mpr hf))))) rfl rfl
  · intro aborted
    refine ⟨fun hn => ⟨fun hv => ?_, fun block hv h1 h2 h3 => ?_⟩, fun i hi => ?_, fun hi => ?_⟩
    · refine (stepCapture_eq hc).trans ?_
      rw [not_full hn, hv]
      rfl
    · intro k
      refine (stepCapture_eq hc).trans ?_
      rw [not_full hn, hv, if_neg Bool.false_ne_true, if_pos rfl, storeFrame_eq, captureBlock_eq h1 h2 h3]
    · refine (lossToCapture_eq hc).trans ?_
      have hf : c.fromLink = true := by unfold Capture.fromLink; rw [hi]
      rw [hf]
      rfl
    · refine (lossToCapture_eq hc).trans ?_
      have hf : c.fromLink = false := by
        unfold Capture.fromLink
        split
        · next i he => exact absurd he (hi i)
        · rfl
      rw [hf]
      rfl
  · have hf : c.full = true := by unfold Capture.full; rw [hr, hl]; simp
    have hb : (s.clip.capture.any Capture.full) = true := by rw [hc]; exact hf
    refine (stepIn_next ha hb).trans (congrArg _ ?_)
    rw [runDue_atItem ha]
    refine (stepCapture_eq (s := s.without .capture) hc).trans ?_
    rw [if_pos hf]
    rfl

/-! ### CAPTURE ABORT and CLIP REMOVE (R117, R118) -/

/-- CAPTURE ABORT finds its capture. -/
theorem abortCaptureMessage_found {clip : U8} {s : State} {c : Capture} (hk : clipId clip = some c.clip)
    (hc : s.clip.capture = some c) :
    abortCaptureMessage clip s = ({ code := .ok, data := bytes4 c.count }, s.abortCapture c .asked) := by
  unfold abortCaptureMessage
  rw [hk, hc]
  exact if_pos rfl

/-- CAPTURE ABORT finds no capture of its clip. -/
theorem abortCaptureMessage_notFound {clip : U8} {s : State} {k : Nat} (hk : clipId clip = some k)
    (hc : ∀ c, s.clip.capture = some c → c.clip ≠ k) : abortCaptureMessage clip s = refuse .notFound s := by
  unfold abortCaptureMessage
  rw [hk]
  cases h : s.clip.capture with
  | none => rfl
  | some c => exact if_neg (hc c h)

/-- An aborted capture and the placing of its message are independent. -/
theorem abortCapture_placed (s : State) (o : Origin) (c : Capture) (r : AbortReason) :
    (s.onMsg fun m => m.placed o).abortCapture c r = (s.abortCapture c r).onMsg fun m => m.placed o :=
  post_placed (s.onClip fun p => { p with capture := none, clips := p.clips.filter fun d => d.id != c.clip }) o _

/-- CLIP REMOVE of a clip that is STORED and that nothing uses. -/
theorem removeClip_free {clip : U8} {s : State} {k : Nat} {c : Clip} (hk : clipId clip = some k) (hc : s.clipRecord k = some c)
    (hs : c.stored = true) (hv : ∀ v : Fin 8, s.clip.voices[v].uses k = false) (hq : ∀ q ∈ s.relay.calls, q.source ≠ .clip k) :
    removeClip clip s = ({ code := .ok
                           data := bytes4 (4194304 - ((s.clip.clips.filter fun d => d.id != k).map Clip.length).sum) },
      s.onClip fun p => { p with clips := p.clips.filter fun d => d.id != k }) := by
  have h1 : ¬ (s.clip.voices.toList.any fun v => v.uses k) = true := by
    intro h
    obtain ⟨r, hr, hu⟩ := List.any_eq_true.mp h
    obtain ⟨i, hi, rfl⟩ := Vector.mem_iff_getElem.mp (Vector.mem_toList_iff.mp hr)
    exact absurd hu (by rw [show (s.clip.voices[i]).uses k = false from hv ⟨i, hi⟩]; decide)
  have h2 : ¬ (s.relay.calls.any fun q => q.names k) = true := by
    intro h
    obtain ⟨q, hm, hu⟩ := List.any_eq_true.mp h
    unfold Call.names at hu
    split at hu
    · next j hj => exact hq q hm (hj.trans (congrArg CallSource.clip (beq_iff_eq.mp hu)))
    · cases hu
  unfold removeClip
  rw [hk]
  dsimp only
  rw [hc]
  dsimp only
  rw [if_neg]
  · rfl
  · rintro (h | h | h)
    · rw [hs] at h; cases h
    · exact h1 h
    · exact h2 h

/-- Settles O35: CAPTURE ABORT and CLIP REMOVE, finding and not finding. -/
theorem clipsDiscarded : Obligations.ClipsDiscarded := by
  intro o clip k s hb hh hk
  refine ⟨fun c hc he => ?_, fun hc => ?_, fun hc => ?_, fun c hc hs hv hq => ?_⟩
  · subst he
    have hst := replies_of_still (post_still (s.onClip fun p => { p with
      capture := none, clips := p.clips.filter fun d => d.id != c.clip }) (captureAbortedPost c .asked))
    refine now_replied (s.abortCapture c .asked) hb hh (not_dropped o rfl) rfl ?_ hst.1 hst.2
    exact (abortCaptureMessage_found (s := s.onMsg fun m => m.placed o) hk hc).trans (congrArg _ (abortCapture_placed s o c .asked))
  · exact now_refused hb hh (not_dropped o rfl) rfl (abortCaptureMessage_notFound hk hc)
  · refine now_refused hb hh (not_dropped o rfl) rfl ?_
    have hn : (s.onMsg fun m => m.placed o).clipRecord k = none :=
      List.find?_eq_none.mpr fun c hm => by simpa using hc c hm
    show removeClip clip _ = _
    unfold removeClip
    rw [hk]
    dsimp only
    rw [hn]
  · exact now_replied (s.onClip fun p => { p with clips := p.clips.filter fun d => d.id != k }) hb hh (not_dropped o rfl) rfl
      (removeClip_free (s := s.onMsg fun m => m.placed o) hk hc hs hv hq) rfl rfl

end Sys2Proof.Machine

/-! SUPPORT. VOICE PLAY and VOICE STOP. -/

namespace Sys2Proof.Machine

open Sys2Proof

/-! ### Voice operations and the message controller are independent -/

theorem closeVoice_onMsg (s : State) (f : Msg → Msg) (v : Fin 8) (n : Nat) :
    (s.onMsg f).closeVoice v n = (s.closeVoice v n).onMsg f := by
  unfold State.closeVoice
  rw [State.onMsg_cue]
  cases s.cue.follow with
  | none => rfl
  | some g =>
    dsimp only
    by_cases hc : g.serial = n ∧ s.clip.voices[v].counts n = false
    · rw [if_pos hc]
      exact if_pos hc
    · rw [if_neg hc]
      exact if_neg hc

theorem playVoice_onMsg (s : State) (f : Msg → Msg) (v : Fin 8) (p : Playback) (g : LevelCode) :
    (s.onMsg f).playVoice v p g = (s.playVoice v p g).onMsg f := by
  unfold State.playVoice
  by_cases hi : s.clip.voices[v].state = .idle
  · rw [if_pos hi, if_pos (show (s.onMsg f).clip.voices[v].state = .idle from hi)]
    rfl
  · rw [if_neg hi, if_neg (show ¬ (s.onMsg f).clip.voices[v].state = .idle from hi)]
    unfold State.restartVoice
    dsimp only
    rw [show (s.onMsg f).clip.voices[v].pending = s.clip.voices[v].pending from rfl]
    cases s.clip.voices[v].pending with
    | none => rfl
    | some q =>
      dsimp only
      exact closeVoice_onMsg ((s.dropFade (.voiceGain v)).onVoice v _) f v _

theorem reportEnd_onMsg (s : State) (f : Msg → Msg) (v : Fin 8) (p : Playback) (c : EndCause) :
    (s.onMsg f).reportEnd v p c = (s.reportEnd v p c).onMsg f := by
  unfold State.reportEnd
  cases p.owner with
  | cue n => exact closeVoice_onMsg s f v _
  | direct => rfl
  | call k => rfl

theorem silenceVoice_onMsg (s : State) (f : Msg → Msg) (v : Fin 8) (g : Option LevelCode) :
    (s.onMsg f).silenceVoice v g = (s.silenceVoice v g).onMsg f := by
  unfold State.silenceVoice
  dsimp only
  rw [show (s.onMsg f).clip.voices[v].playback = s.clip.voices[v].playback from rfl]
  cases s.clip.voices[v].playback with
  | none => rfl
  | some p =>
    dsimp only
    exact reportEnd_onMsg ((s.dropFade (.voiceGain v)).onVoice v _) f v p _

theorem putFade_onMsg (s : State) (f : Msg → Msg) (d : Fade) : (s.onMsg f).putFade d = (s.putFade d).onMsg f := by
  have put : ∀ (t : State) (u : Target) (c : LevelCode), (t.onMsg f).putCode u c = (t.putCode u c).onMsg f := by
    intro t u c; cases u <;> rfl
  unfold State.putFade
  rw [show (s.onMsg f).fadeOf d.target = s.fadeOf d.target from rfl]
  cases s.fadeOf d.target with
  | none => exact put (s.onCue fun c => { c with fades := c.fades ++ [d] }) d.target d.endCode
  | some old =>
    have taken := put (s.onCue fun c => { c with fades := c.fades.map fun g => if g.target = d.target then d else g })
      d.target d.endCode
    dsimp only
    split
    · exact taken
    · exact congrArg (fun t : State => t.closeItem (.fade d.target)) taken

theorem fadeVoiceOut_placed (s : State) (o : Origin) (v : Fin 8) (d : Nat) (w : Option Nat) (n : Nat) :
    (s.onMsg fun m => m.placed o).fadeVoiceOut v d w n = (s.fadeVoiceOut v d w n).onMsg fun m => m.placed o := by
  unfold State.fadeVoiceOut
  by_cases hd : d = 0
  · rw [if_pos hd, if_pos hd, silenceVoice_onMsg]
  · rw [if_neg hd, if_neg hd, show (s.onMsg fun m => m.placed o).fadeRoom (.voiceGain v) = s.fadeRoom (.voiceGain v) from rfl]
    split
    · rw [show (s.onMsg fun m => m.placed o).freshFade (.voiceGain v) .linear 0 d w n
        = s.freshFade (.voiceGain v) .linear 0 d w n from rfl, putFade_onMsg]
      rfl
    · rw [post_placed, silenceVoice_onMsg]

/-! ### VOICE PLAY (R120, R121, R124) -/

/-- VOICE PLAY of a voice, a clip or a loop flag that there is not. -/
theorem voicePlay_range {voice clip loop : U8} {gain : U16}
    (h : 7 < voice.toNat ∨ clip = 0 ∨ 128 < clip.toNat ∨ 2 ≤ loop.toNat) (s : State) :
    voicePlay voice clip gain loop s = refuse .range s := by
  unfold voicePlay
  split
  · next v k l hv hk hl =>
    exfalso
    unfold clipId at hk
    rcases h with h | h | h | h
    · rw [index_of_le h] at hv; cases hv
    · rw [h] at hk; cases hk
    · rw [if_neg fun hc => absurd hc.2 (Nat.not_le.mpr h)] at hk; cases hk
    · rw [flagValue_of_le h] at hl; cases hl
  · rfl

/-- VOICE PLAY of a voice, a clip and a loop flag that there are: the checks in their order. -/
theorem voicePlay_eq {voice clip loop : U8} {gain : U16} {v : Fin 8} {k : Nat} {l : Bool} (hv : v.val = voice.toNat)
    (hk : clipId clip = some k) (hl : flagValue loop = some l) (s : State) :
    voicePlay voice clip gain loop s =
      if ¬ v.val < 8 - max s.clip.reserve s.msg.node.reserve then refuse .inUse s
      else if s.cue.held = true then refuse .held s
      else if (s.storedClip k).isNone then refuse .notFound s
      else ({ code := .ok
              data := byte (s.playVoice v { clip := k, loop := l, owner := .direct, serial := 0 }
                (clampCode gain.toNat)).clip.voices[v].state.ctorIdx },
        s.playVoice v { clip := k, loop := l, owner := .direct, serial := 0 } (clampCode gain.toNat)) := by
  have hp : (s.isCueVoice v = false ∨ s.changesSide v = true) ↔ ¬ v.val < 8 - max s.clip.reserve s.msg.node.reserve := by
    rw [← playable_iff]
    cases s.isCueVoice v <;> cases s.changesSide v <;> decide
  unfold voicePlay
  rw [index_of_eq hv, hk, hl]
  dsimp only
  simp only [hp]

/-- A flag byte below 2 is a value. -/
theorem flagValue_of_lt {b : U8} (h : b.toNat < 2) : ∃ l, flagValue b = some l := by
  have hb : b.toNat = 0 ∨ b.toNat = 1 := by omega
  rcases hb with hb | hb
  · exact ⟨false, flagValue_of_eq (BitVec.eq_of_toNat_eq hb)⟩
  · exact ⟨true, flagValue_of_eq (BitVec.eq_of_toNat_eq hb)⟩

/-- A playback on a voice that is IDLE begins there. -/
theorem playVoice_idle {s : State} {v : Fin 8} (h : s.clip.voices[v].state = .idle) (p : Playback) (g : LevelCode) :
    s.playVoice v p g = s.startVoice v p g := if_pos h

/-- A busy voice restarts with a cut-out, the new playback pending (R121). -/
theorem playVoice_busy {s : State} {v : Fin 8} (h : s.clip.voices[v].state ≠ .idle) (p : Playback) (g : LevelCode) :
    (s.playVoice v p g).clip = (s.onVoice v fun r =>
      { r with gain := inv r.gainEnd, state := .stopping, ending := .cutOut
               cutFrom := if r.ending = .cutOut then r.cutFrom else r.factorEnd
               cutElapsed := if r.ending = .cutOut then r.cutElapsed else 0
               pending := some { playback := p, gain := g } }).clip := by
  have close : ∀ (t : State) n, (t.closeVoice v n).clip = t.clip := by
    intro t n; unfold State.closeVoice; (repeat' split) <;> rfl
  unfold State.playVoice
  rw [if_neg h]
  unfold State.restartVoice
  dsimp only
  cases s.clip.voices[v].pending with
  | none => rfl
  | some q => exact close _ _

/-- What starting a playback on a voice leaves. -/
theorem playVoice_keeps (s : State) (v : Fin 8) (p : Playback) (g : LevelCode) :
    (s.playVoice v p g).fadeOf (.voiceGain v) = none
      ∧ (∀ u : Fin 8, u ≠ v → (s.playVoice v p g).clip.voices[u] = s.clip.voices[u])
      ∧ (s.playVoice v p g).inputs = s.inputs ∧ (s.playVoice v p g).mix = s.mix ∧ (s.playVoice v p g).relay = s.relay
      ∧ (s.playVoice v p g).link = s.link ∧ (s.playVoice v p g).due = s.due := by
  by_cases h : s.clip.voices[v].state = .idle
  · rw [playVoice_idle h]
    exact ⟨(startVoice_fadeOf ..).trans (if_pos rfl), fun u hu => startVoice_other s v u p g hu, rfl, rfl, rfl, rfl, rfl⟩
  · have other : ∀ u : Fin 8, u ≠ v → (s.playVoice v p g).clip.voices[u] = s.clip.voices[u] := by
      intro u hu
      rw [playVoice_busy h]
      exact alter_other _ v u _ (Ne.symm hu)
    have close : ∀ (t : State) n, (t.closeVoice v n).fadeOf (.voiceGain v) = t.fadeOf (.voiceGain v)
        ∧ (t.closeVoice v n).inputs = t.inputs ∧ (t.closeVoice v n).mix = t.mix ∧ (t.closeVoice v n).relay = t.relay
        ∧ (t.closeVoice v n).link = t.link ∧ (t.closeVoice v n).due = t.due := by
      intro t n
      unfold State.closeVoice
      (repeat' split) <;> exact ⟨rfl, rfl, rfl, rfl, rfl, rfl⟩
    have gone : (s.dropFade (.voiceGain v)).fadeOf (.voiceGain v) = none := (dropFade_fadeOf ..).trans (if_pos rfl)
    refine ⟨?_, other, ?_⟩
    all_goals
      unfold State.playVoice
      rw [if_neg h]
      unfold State.restartVoice
      dsimp only
    · split
      · exact (close _ _).1.trans gone
      · exact gone
    · split
      · exact (close _ _).2
      · exact ⟨rfl, rfl, rfl, rfl, rfl⟩

/-- Settles O36: the refusals of VOICE PLAY, and the playback it begins. -/
theorem voicePlayBegins : Obligations.VoicePlayBegins := by
  refine ⟨fun o voice clip gain loop s ha hw hh => ⟨fun h => ?_, fun v k hv hk h1 h2 hl => ?_⟩,
    fun o voice clip gain loop v k c s ha hw hh hv hk hc hlow hheld => ?_⟩
  · exact boundary_refused (r := .voicePlay voice clip gain loop) ha hw hh (voicePlay_range h _)
  · intro low
    obtain ⟨l, hl⟩ := flagValue_of_lt hl
    have hk' : clipId clip = some k := by
      subst hk
      exact if_pos ⟨h1, h2⟩
    have hset := voicePlay_eq (gain := gain) hv hk' hl (s.onMsg fun m => m.placed o)
    have hlow : 8 - max s.clip.reserve (s.msg.placed o).node.reserve = low := by cases o <;> rfl
    have hres : ∀ {P : Prop}, (¬ v.val < low → P) →
        ¬ v.val < 8 - max (s.onMsg fun m => m.placed o).clip.reserve (s.onMsg fun m => m.placed o).msg.node.reserve → P :=
      fun hP hx => hP (hlow ▸ hx)
    have hlt : v.val < low →
        ¬ ¬ v.val < 8 - max (s.onMsg fun m => m.placed o).clip.reserve (s.onMsg fun m => m.placed o).msg.node.reserve :=
      fun hx => not_not_intro (show v.val < 8 - max s.clip.reserve (s.msg.placed o).node.reserve from hlow ▸ hx)
    refine ⟨fun hx => ?_, fun hx hheld => ?_, fun hx hheld hn => ?_⟩
    · refine boundary_refused (r := .voicePlay voice clip gain loop) ha hw hh (hset.trans (if_pos ?_))
      show ¬ v.val < 8 - max s.clip.reserve (s.msg.placed o).node.reserve
      rw [hlow]
      exact Nat.not_lt.mpr hx
    · exact boundary_refused (r := .voicePlay voice clip gain loop) ha hw hh (hset.trans ((if_neg (hlt hx)).trans (if_pos hheld)))
    · have hs : (s.onMsg fun m => m.placed o).storedClip k = none := by
        refine List.find?_eq_none.mpr fun d hd => ?_
        by_cases hdk : d.id = k
        · simp [hdk, hn d hd hdk]
        · simp [hdk]
      refine boundary_refused (r := .voicePlay voice clip gain loop) ha hw hh (hset.trans ((if_neg (hlt hx)).trans
        ((if_neg ?_).trans (if_pos ?_))))
      · show ¬ s.cue.held = true
        rw [hheld]; decide
      · rw [hs]; rfl
  · let p : Playback := { clip := k, loop := loop, owner := .direct, serial := 0 }
    let t := s.playVoice v p (clampCode gain.toNat)
    have hl : flagValue (if loop then 1 else 0) = some loop := flagValue_of_eq rfl
    have hset := voicePlay_eq (gain := gain) hv hk hl (s.onMsg fun m => m.placed o)
    obtain ⟨k1, k2, k3, k4, k5, k6, k7⟩ := playVoice_keeps s v p (clampCode gain.toNat)
    refine ⟨t, byte t.clip.voices[v].state.ctorIdx, ?_, fun hi => ?_, fun hi => ?_, k1,
      playVoice_closes s v p (clampCode gain.toNat), k2, k3, k4, k5, k6, k7⟩
    · refine boundary_replied (r := .voicePlay voice clip gain (if loop then 1 else 0)) t ha hw hh ?_
        (congrArg Msg.still (playVoice_msg _ _ _ _))
      have hlow' : v.val < 8 - max s.clip.reserve (s.msg.placed o).node.reserve := by cases o <;> exact hlow
      refine hset.trans ((if_neg (not_not_intro hlow')).trans ((if_neg ?_).trans ((if_neg ?_).trans ?_)))
      · show ¬ s.cue.held = true
        rw [hheld]; decide
      · rw [show (s.onMsg fun m => m.placed o).storedClip k = some c from hc]
        exact Bool.false_ne_true
      · rw [playVoice_onMsg]
        rfl
    · have hv' : t.clip.voices[v] = _ := (congrArg (fun x : State => x.clip.voices[v]) (playVoice_idle hi p _)).trans
        (startVoice_voice s v p _)
      exact ⟨congrArg (fun r : Voice => byte r.state.ctorIdx) hv', hv'⟩
    · have hv' : t.clip.voices[v] = _ := (congrArg (fun x : ClipPlayer => x.voices[v]) (playVoice_busy hi p _)).trans
        (alter_same s.clip.voices v _)
      rw [hv']
      exact ⟨rfl, rfl, rfl, rfl, rfl, rfl, rfl⟩

end Sys2Proof.Machine

/-! SUPPORT. VOICE STOP in each state of a voice. -/

namespace Sys2Proof.Machine

open Sys2Proof

/-! ### VOICE STOP by the state of the voice (R122) -/

section

variable {s : State} {v : Fin 8} {d n : Nat} {w : Option Nat}

theorem stopVoice_idle (h : s.clip.voices[v].state = .idle) : s.stopVoice v d w n = s := by
  unfold State.stopVoice
  dsimp only
  rw [h]

theorem stopVoice_paused (h : s.clip.voices[v].state = .paused) :
    s.stopVoice v d w n = s.silenceVoice v (if d = 0 then some 0 else none) := by
  unfold State.stopVoice
  dsimp only
  rw [h]

/-- A cut-out runs on without its pending start. -/
theorem stopVoice_cutOut (h : s.clip.voices[v].state = .stopping) (he : s.clip.voices[v].ending = .cutOut) :
    s.stopVoice v d w n = s.clip.voices[v].pending.elim (s.onVoice v fun r => { r with pending := none })
      fun q => (s.onVoice v fun r => { r with pending := none }).closeVoice v q.playback.serial := by
  unfold State.stopVoice
  dsimp only
  rw [h, he]
  dsimp only
  cases s.clip.voices[v].pending <;> rfl

theorem stopVoice_fades (h : s.clip.voices[v].state = .playing
    ∨ (s.clip.voices[v].state = .stopping ∧ s.clip.voices[v].ending = .stopFade)) :
    s.stopVoice v d w n = s.fadeVoiceOut v d w n := by
  unfold State.stopVoice
  dsimp only
  rcases h with h | ⟨h, he⟩
  · rw [h]
  · rw [h, he]

theorem fadeVoiceOut_zero : s.fadeVoiceOut v 0 w n = s.silenceVoice v (some 0) := if_pos rfl

theorem fadeVoiceOut_room (hd : d ≠ 0) (hr : s.fadeRoom (.voiceGain v) = true) :
    s.fadeVoiceOut v d w n = (s.putFade (s.freshFade (.voiceGain v) .linear 0 d w n)).onVoice v fun r =>
      { r with state := .stopping, ending := .stopFade } := by
  unfold State.fadeVoiceOut
  rw [if_neg hd, if_pos hr]

theorem fadeVoiceOut_full (hd : d ≠ 0) (hr : s.fadeRoom (.voiceGain v) = false) :
    s.fadeVoiceOut v d w n = (s.post (tableFullPost w (.voiceGain v))).silenceVoice v (some 0) := by
  unfold State.fadeVoiceOut
  rw [if_neg hd, hr, if_neg Bool.false_ne_true]

end

/-- A voice silenced at a boundary (R122). -/
theorem silenceVoice_voice (s : State) (v : Fin 8) (g : Option LevelCode) :
    (s.silenceVoice v g).clip.voices[v]
        = { s.clip.voices[v].toIdle with gain := g.getD s.clip.voices[v].gain }
      ∧ (∀ u : Fin 8, u ≠ v → (s.silenceVoice v g).clip.voices[u] = s.clip.voices[u])
      ∧ (s.silenceVoice v g).fadeOf (.voiceGain v) = none
      ∧ (s.silenceVoice v g).inputs = s.inputs ∧ (s.silenceVoice v g).mix = s.mix := by
  have gone : (s.dropFade (.voiceGain v)).fadeOf (.voiceGain v) = none := (dropFade_fadeOf ..).trans (if_pos rfl)
  unfold State.silenceVoice
  dsimp only
  split
  · next p _ =>
    obtain ⟨hc, hm, hi, -, -, -, -, -, -, hf, -⟩ := reportEnd_keeps ((s.dropFade (.voiceGain v)).onVoice v fun r =>
      { r.toIdle with gain := g.getD r.gain }) v p .ended
    refine ⟨?_, fun u hu => ?_, ?_, hi, hm⟩
    · rw [hc]; exact alter_same _ v _
    · rw [hc]; exact alter_other _ v u _ (Ne.symm hu)
    · unfold State.fadeOf; rw [hf]; exact gone
  · exact ⟨alter_same _ v _, fun u hu => alter_other _ v u _ (Ne.symm hu), gone, rfl, rfl⟩

/-- A voice that a STOP fade takes over (R122). -/
theorem stopFade_begins {s : State} {v : Fin 8} {f : Fade} (hf : f.target = .voiceGain v) :
    let t := (s.putFade f).onVoice v fun r => { r with state := .stopping, ending := .stopFade }
    t.clip.voices[v].state = .stopping ∧ t.clip.voices[v].ending = .stopFade
      ∧ t.clip.voices[v].playback = s.clip.voices[v].playback ∧ (∀ u : Fin 8, u ≠ v → t.clip.voices[u] = s.clip.voices[u])
      ∧ t.fadeOf (.voiceGain v) = some f ∧ t.inputs = s.inputs ∧ t.mix = s.mix := by
  have rest : (s.putFade f).clip = (s.onVoice v fun r => { r with gain := f.endCode }).clip ∧ (s.putFade f).inputs = s.inputs
      ∧ (s.putFade f).mix = s.mix := by
    unfold State.putFade
    rw [hf]
    split
    · dsimp only
      split <;> exact ⟨rfl, rfl, rfl⟩
    · exact ⟨rfl, rfl, rfl⟩
  obtain ⟨hc, hi, hm⟩ := rest
  intro t
  have hr : (s.putFade f).clip.voices[v] = { s.clip.voices[v] with gain := f.endCode } := by
    rw [hc]; exact alter_same _ v _
  have hv : t.clip.voices[v] = { s.clip.voices[v] with gain := f.endCode, state := .stopping, ending := .stopFade } :=
    (alter_same (s.putFade f).clip.voices v _).trans
      (congrArg (fun r : Voice => { r with state := .stopping, ending := .stopFade }) hr)
  refine ⟨by rw [hv], by rw [hv], by rw [hv], fun u hu => ?_, ?_, hi, hm⟩
  · refine (alter_other (s.putFade f).clip.voices v u _ (Ne.symm hu)).trans ?_
    rw [hc]
    exact alter_other _ v u _ (Ne.symm hu)
  · exact (putFade_fadeOf s f _).trans (if_pos hf.symm)

/-- The voice without its pending start, whose item of the follow closes when nothing else of its firing is there (R99, R122). -/
def State.withoutPending (s : State) (v : Fin 8) : State :=
  s.clip.voices[v].pending.elim (s.onVoice v fun r => { r with pending := none })
    fun q => (s.onVoice v fun r => { r with pending := none }).closeVoice v q.playback.serial

theorem withoutPending_onMsg (s : State) (f : Msg → Msg) (v : Fin 8) :
    (s.onMsg f).withoutPending v = (s.withoutPending v).onMsg f := by
  unfold State.withoutPending
  rw [State.onMsg_clip]
  cases s.clip.voices[v].pending with
  | none => rfl
  | some q => exact closeVoice_onMsg (s.onVoice v fun r => { r with pending := none }) f v _

theorem withoutPending_keeps (s : State) (v : Fin 8) :
    (s.withoutPending v).clip.voices[v] = { s.clip.voices[v] with pending := none }
      ∧ (s.withoutPending v).cue.fades = s.cue.fades
      ∧ (∀ u : Fin 8, u ≠ v → (s.withoutPending v).clip.voices[u] = s.clip.voices[u])
      ∧ (s.withoutPending v).msg = s.msg ∧ (s.withoutPending v).inputs = s.inputs ∧ (s.withoutPending v).mix = s.mix
      ∧ s.itemsClosed (s.withoutPending v) fun f x => x == .voice v
        && s.clip.voices[v].pending.any (fun q => q.playback.serial == f.serial)
        && !s.clip.voices[v].playback.any (·.counts f.serial) := by
  let t := s.onVoice v fun r => { r with pending := none }
  have hv : t.clip.voices[v] = { s.clip.voices[v] with pending := none } := alter_same _ v _
  have ho : ∀ u : Fin 8, u ≠ v → t.clip.voices[u] = s.clip.voices[u] := fun u hu => alter_other _ v u _ (Ne.symm hu)
  have close : ∀ n, (t.closeVoice v n).clip = t.clip ∧ (t.closeVoice v n).cue.fades = t.cue.fades
      ∧ (t.closeVoice v n).msg = t.msg ∧ (t.closeVoice v n).inputs = t.inputs ∧ (t.closeVoice v n).mix = t.mix := by
    intro n
    unfold State.closeVoice
    (repeat' split) <;> exact ⟨rfl, rfl, rfl, rfl, rfl⟩
  unfold State.withoutPending
  cases hp : s.clip.voices[v].pending with
  | none =>
    exact ⟨hv, rfl, ho, rfl, rfl, rfl, itemsClosed_congr (itemsClosed_of_follow rfl) fun f _ x => by simp⟩
  | some q =>
    obtain ⟨c1, c2, c3, c4, c5⟩ := close q.playback.serial
    refine ⟨?_, c2, fun u hu => ?_, c3, c4, c5, ?_⟩
    · exact (congrArg (fun c : ClipPlayer => c.voices[v]) c1).trans hv
    · exact (congrArg (fun c : ClipPlayer => c.voices[u]) c1).trans (ho u hu)
    · refine itemsClosed_congr (s := s) (closeVoice_closes t v q.playback.serial) fun f _ x => ?_
      have hcount : t.clip.voices[v].counts q.playback.serial
          = s.clip.voices[v].playback.any (·.counts q.playback.serial) := by
        rw [hv]; simp [Voice.counts]
      rw [hcount]
      by_cases hs : f.serial = q.playback.serial
      · simp [hs]
      · have h1 : (f.serial == q.playback.serial) = false := by simpa using hs
        have h2 : (q.playback.serial == f.serial) = false := by simpa using fun e : q.playback.serial = f.serial => hs e.symm
        simp [h1, h2]

/-! ### The message (R124) -/

/-- VOICE STOP of a cue voice: what it leaves and the state it replies. -/
theorem voiceStop_replied {s : State} {o : Origin} {voice : U8} {frames : U32} {v : Fin 8} (t : State) (ha : s.atItem .requests)
    (hw : s.msg.waiting = []) (hh : s.hears o) (hv : v.val = voice.toNat) (hc : v.val < 8 - s.clip.reserve)
    (ht : (s.onMsg fun m => m.placed o).stopVoice v (min 600000 frames.toNat) none 0 = t.onMsg fun m => m.placed o)
    (hs : t.msg.still = s.msg.still) :
    exec (.voiceStop o voice frames) s
      = .next (t.replied o { code := .ok, data := byte t.clip.voices[v].state.ctorIdx }) := by
  refine boundary_replied (r := .voiceStop voice frames) t ha hw hh ?_ hs
  show voiceStop voice frames _ = _
  unfold voiceStop
  rw [index_of_eq hv]
  have hcue : (s.onMsg fun m => m.placed o).isCueVoice v = true := decide_eq_true hc
  dsimp only
  rw [if_pos hcue, show min Config.maxFrames frames.toNat = min 600000 frames.toNat from rfl, ht]
  rfl

/-- VOICE STOP that silences its voice at the boundary (R122). -/
theorem voiceStop_silences {s r : State} {o : Origin} {voice : U8} {frames : U32} {v : Fin 8} {g : Option LevelCode}
    (ha : s.atItem .requests) (hw : s.msg.waiting = []) (hh : s.hears o) (hv : v.val = voice.toNat)
    (hc : v.val < 8 - s.clip.reserve)
    (ht : (s.onMsg fun m => m.placed o).stopVoice v (min 600000 frames.toNat) none 0
      = (r.onMsg fun m => m.placed o).silenceVoice v g)
    (hs : r.msg.still = s.msg.still) :
    exec (.voiceStop o voice frames) s = .next ((r.silenceVoice v g).replied o { code := .ok, data := [0] }) := by
  rw [silenceVoice_onMsg] at ht
  refine (voiceStop_replied (r.silenceVoice v g) ha hw hh hv hc ht ?_).trans ?_
  · rw [silenceVoice_msg]; exact hs
  · rw [(silenceVoice_voice r v g).1]
    rfl

/-- Settles O37: the refusals of VOICE STOP, and what it does in each state of the voice. -/
theorem voiceStopFades : Obligations.VoiceStopFades := by
  refine ⟨fun o voice frames s ha hw hh => ⟨fun h => ?_, fun v hv => ⟨fun hr => ?_, fun hc hi => ?_⟩⟩,
    fun o voice frames v s ha hw hh hv hc => ?_⟩
  · refine boundary_refused (r := .voiceStop voice frames) ha hw hh ?_
    show voiceStop voice frames _ = _
    unfold voiceStop
    rw [index_of_le h]
  · refine boundary_refused (r := .voiceStop voice frames) ha hw hh ?_
    show voiceStop voice frames _ = _
    unfold voiceStop
    rw [index_of_eq hv]
    have hcue : (s.onMsg fun m => m.placed o).isCueVoice v = false := decide_eq_false (Nat.not_lt.mpr hr)
    dsimp only
    rw [hcue, if_neg Bool.false_ne_true]
  · refine (voiceStop_replied s ha hw hh hv hc (stopVoice_idle hi) rfl).trans ?_
    rw [hi]
    rfl
  · intro r kept ended
    have zero : frames = 0 → min 600000 frames.toNat = 0 := by rintro rfl; rfl
    have pos : frames ≠ 0 → min 600000 frames.toNat ≠ 0 := by
      intro h
      have : frames.toNat ≠ 0 := fun he => h (BitVec.eq_of_toNat_eq he)
      omega
    have silenced : ∀ (g : Option LevelCode) (m : Msg) (q : State), q = { s with msg := m } → m.still = s.msg.still →
        (s.onMsg fun m => m.placed o).stopVoice v (min 600000 frames.toNat) none 0
          = (q.onMsg fun m => m.placed o).silenceVoice v g → ended (g.getD r.gain) m := by
      rintro g m q rfl hst ht
      obtain ⟨k1, k2, k3, k4, k5⟩ := silenceVoice_voice { s with msg := m } v g
      exact ⟨_, voiceStop_silences ha hw hh hv hc ht hst, congrArg Voice.state k1, congrArg Voice.playback k1, k3,
        congrArg Voice.gain k1, silenceVoice_msg _ _ _, ⟨k2, k4, k5⟩, silenceVoice_closes { s with msg := m } v g⟩
    refine ⟨fun hp => ⟨fun hz => ?_, fun hz hr => ?_, fun hz hr => ?_⟩, fun hp => ?_, fun hs he => ?_⟩
    · refine silenced (some 0) s.msg s rfl rfl ?_
      rw [stopVoice_fades (s := s.onMsg fun m => m.placed o) hp, zero hz, fadeVoiceOut_zero]
    · refine silenced (some 0) _ (s.post (tableFullPost none (.voiceGain v))) rfl (post_still _ _) ?_
      rw [stopVoice_fades (s := s.onMsg fun m => m.placed o) hp,
        fadeVoiceOut_full (s := s.onMsg fun m => m.placed o) (pos hz) hr, post_placed]
    · let f := s.freshFade (.voiceGain v) .linear 0 (min 600000 frames.toNat) none 0
      let t := (s.putFade f).onVoice v fun r => { r with state := .stopping, ending := .stopFade }
      obtain ⟨k1, k2, k3, k4, k5, k6, k7⟩ := stopFade_begins (s := s) (f := f) (v := v) rfl
      have hm : t.msg = s.msg := putFade_msg s f
      have ht : (s.onMsg fun m => m.placed o).stopVoice v (min 600000 frames.toNat) none 0 = t.onMsg fun m => m.placed o := by
        rw [stopVoice_fades (s := s.onMsg fun m => m.placed o) hp,
          fadeVoiceOut_room (s := s.onMsg fun m => m.placed o) (pos hz) hr]
        show ((s.onMsg fun m => m.placed o).putFade f).onVoice v _ = _
        rw [putFade_onMsg]
        rfl
      refine ⟨t, f, (voiceStop_replied t ha hw hh hv hc ht (congrArg Msg.still hm)).trans ?_, k1, k2, k3, k5, rfl, rfl, rfl, rfl,
        rfl, hm, ⟨k4, k6, k7⟩, putFade_closes s f⟩
      rw [k1]
      rfl
    · have h := silenced (if min 600000 frames.toNat = 0 then some 0 else none) s.msg s rfl rfl
        (stopVoice_paused (s := s.onMsg fun m => m.placed o) hp)
      by_cases hz : frames = 0
      · rw [if_pos hz]
        rw [if_pos (zero hz)] at h
        exact h
      · rw [if_neg hz]
        rw [if_neg (pos hz)] at h
        exact h
    · obtain ⟨k1, k2, k3, k4, k5, k6, k7⟩ := withoutPending_keeps s v
      have ht : (s.onMsg fun m => m.placed o).stopVoice v (min 600000 frames.toNat) none 0
          = (s.withoutPending v).onMsg fun m => m.placed o := by
        rw [stopVoice_cutOut (s := s.onMsg fun m => m.placed o) hs he]
        exact withoutPending_onMsg s _ v
      refine ⟨s.withoutPending v, (voiceStop_replied _ ha hw hh hv hc ht (congrArg Msg.still k4)).trans ?_, k1, k2, k4,
        ⟨k3, k5, k6⟩, k7⟩
      rw [k1]
      show Host.Outcome.next (State.replied _ o { code := .ok, data := byte r.state.ctorIdx }) = _
      rw [hs]
      rfl

end Sys2Proof.Machine

/-! SUPPORT. The call queue by id, the placing of a call, and CALL END and CALL CANCEL. -/

namespace Sys2Proof.Machine

open Sys2Proof

/-! ### The call of an id, through the operations of the relay controller -/

/-- A call that is found is in the queue and has the id. -/
theorem mem_of_callOf {s : State} {k : Nat} {c : Call} (h : s.callOf k = some c) : c ∈ s.relay.calls ∧ c.id = k :=
  ⟨List.mem_of_find?_eq_some h, by simpa using List.find?_some h⟩

/-- No call of the id is in the queue exactly when none is found. -/
theorem callGone_iff (s : State) (k : Nat) : s.callGone k ↔ s.callOf k = none := by
  simp [State.callGone, State.callOf, List.find?_eq_none]

/-- Changing the record of one call, its id kept. -/
theorem onCall_callOf (s : State) (j k : Nat) (f : Call → Call) (hf : ∀ c : Call, (f c).id = c.id) :
    (s.onCall j f).callOf k = if k = j then (s.callOf k).map f else s.callOf k := by
  have hp : ((fun c : Call => c.id == k) ∘ fun c => if c.id = j then f c else c) = fun c => c.id == k := by
    funext c
    by_cases h : c.id = j <;> simp [h, hf]
  show (s.relay.calls.map _).find? _ = _
  rw [List.find?_map, hp]
  unfold State.callOf
  cases hc : s.relay.calls.find? fun c => c.id == k with
  | none => simp
  | some c =>
    have hk : c.id = k := by simpa using List.find?_some hc
    by_cases h : k = j
    · simp [hk, h]
    · simp [hk, h]

/-- A call that reaches its end is not found any more, and no other changes. -/
theorem endCall_callOf (s : State) (c : Call) (e : CallEnd) (k : Nat) :
    (s.endCall c e).callOf k = if k = c.id then none else s.callOf k := by
  show (s.relay.calls.filter fun d => d.id != c.id).find? (fun d => d.id == k) = _
  rw [List.find?_filter]
  unfold State.callOf
  by_cases h : k = c.id
  · rw [if_pos h, List.find?_eq_none]
    intro d _
    simp [h]
  · rw [if_neg h]
    congr 1
    funext d
    by_cases hd : d.id = k <;> simp [hd, h]

@[simp] theorem freeZones_callOf (s : State) (j k : Nat) : (s.freeZones j).callOf k = s.callOf k := rfl

/-- A zone that is made FREE, and any other (R134). -/
theorem freeZones_call (s : State) (k : Nat) (z : Fin 16) :
    (s.freeZones k).relay.zones[z].call = if s.relay.zones[z].call = some k then none else s.relay.zones[z].call := by
  have h : (s.freeZones k).relay.zones[z] = _ := table_at _ z
  rw [h]
  split <;> rfl

/-- No zone that has been made FREE is on air for the call. -/
theorem freeZones_gone (s : State) (k : Nat) (z : Fin 16) : (s.freeZones k).relay.zones[z].call ≠ some k := by
  rw [freeZones_call]
  split
  · exact fun h => by cases h
  · next h => exact h

/-! ### What the relay controller leaves alone -/

/-- What no step of the relay pass on a call touches, but for the clip player and the follow. -/
def State.outside (s : State) : CueEngine × ClipPlayer × Vector InputRecord 64 × Mix × Link :=
  (s.cue, s.clip, s.inputs, s.mix, s.link)

theorem outside_iff {s t : State} :
    t.outside = s.outside ↔ t.cue = s.cue ∧ t.clip = s.clip ∧ t.inputs = s.inputs ∧ t.mix = s.mix ∧ t.link = s.link := by
  simp [State.outside]

theorem onCall_zones (s : State) (k : Nat) (f : Call → Call) : (s.onCall k f).relay.zones = s.relay.zones := rfl
theorem endCall_zones (s : State) (c : Call) (e : CallEnd) : (s.endCall c e).relay.zones = s.relay.zones := rfl
theorem onCall_outside (s : State) (k : Nat) (f : Call → Call) : (s.onCall k f).outside = s.outside := rfl
theorem endCall_outside (s : State) (c : Call) (e : CallEnd) : (s.endCall c e).outside = s.outside := rfl
theorem freeZones_outside (s : State) (k : Nat) : (s.freeZones k).outside = s.outside := rfl

@[simp] theorem answer_outside (s : State) (p : Option Nat) (r : Result) : (s.answer p r).outside = s.outside := by
  cases p <;> rfl

@[simp] theorem answer_relay (s : State) (p : Option Nat) (r : Result) : (s.answer p r).relay = s.relay := by
  cases p <;> rfl

/-! ### CALL PLACE (R136) -/

/-- The state in which a refused CALL PLACE leaves the node: one without a reply posts its refusal (R136). -/
def State.callRefused (s : State) (o : Origin) (code : ResultCode) : State :=
  match o with
  | .addressed _ => s
  | _ => s.post (callRefusedPost code)

theorem callRefused_placed (s : State) (o : Origin) (code : ResultCode) :
    (s.onMsg fun m => m.placed o).callRefused o code = (s.callRefused o code).onMsg fun m => m.placed o := by
  cases o <;> rfl

theorem callRefused_still (s : State) (o : Origin) (code : ResultCode) : (s.callRefused o code).msg.still = s.msg.still := by
  cases o with
  | addressed tag => rfl
  | group a => exact post_still _ _
  | broadcast => exact post_still _ _

/-- CALL PLACE that its checks refuse. -/
theorem placeCall_refused {o : Origin} {raw : RawCall} {s : State} {code : ResultCode}
    (h : (checkCall raw = none ∧ code = .range) ∨ ∃ c, checkCall raw = some c ∧ s.callRefusal c = some code) :
    placeCallMessage o raw s = ({ code := code }, s.callRefused o code) := by
  unfold placeCallMessage
  rcases h with ⟨h, rfl⟩ | ⟨c, h, hr⟩
  · rw [h]
    cases o <;> rfl
  · rw [h]
    dsimp only
    rw [hr]
    cases o <;> rfl

/-- CALL PLACE that passes its checks. -/
theorem placeCall_accepted {o : Origin} {raw : RawCall} {s : State} {c : CallSpec} (h : checkCall raw = some c)
    (hr : s.callRefusal c = none) :
    placeCallMessage o raw s = ({ code := .ok, data := bytes2 s.newCallId }, s.acceptCall c) := by
  unfold placeCallMessage
  rw [h]
  dsimp only
  rw [hr]

/-- A refused CALL PLACE: nothing but the reply, or the post where there is none. -/
theorem callPlace_refuses {o : Origin} {raw : RawCall} {s : State} {code : ResultCode} (hb : s.between) (hh : s.hears o)
    (h : (checkCall raw = none ∧ code = .range) ∨ ∃ c, checkCall raw = some c ∧ s.callRefusal c = some code) :
    (∀ tag, o = .addressed tag → exec (.callPlace o raw) s = .next (s.replied o { code := code }))
      ∧ ((∀ tag, o ≠ .addressed tag) → exec (.callPlace o raw) s
        = .next (s.post { kind := .callRefused, subject := .none, detail := [BitVec.ofNat 8 code.value] })) := by
  obtain ⟨hr, hn⟩ := replies_of_still (callRefused_still s o code)
  have hset : placeCallMessage o raw (s.onMsg fun m => m.placed o)
      = ({ code := code }, (s.callRefused o code).onMsg fun m => m.placed o) := by
    rw [← callRefused_placed]
    exact placeCall_refused (s := s.onMsg fun m => m.placed o) h
  have hk : exec (.callPlace o raw) s = .next ((s.callRefused o code).replied o { code := code }) :=
    now_replied (s.callRefused o code) hb hh (not_dropped o rfl) rfl hset hr hn
  refine ⟨fun tag ho => ?_, fun ho => ?_⟩
  · subst ho; exact hk
  · cases o with
    | addressed tag => exact absurd rfl (ho tag)
    | group a => exact hk
    | broadcast => exact hk

/-- A clip call whose clip is not STORED. -/
theorem clipMissing_iff (s : State) (k : Nat) :
    (s.storedClip k).isNone = true ↔ ∀ d ∈ s.clip.clips, d.id = k → d.stored = false := by
  rw [Option.isNone_iff_eq_none]
  simp [State.storedClip, List.find?_eq_none]

/-- The source of a call is a clip. -/
def CallSpec.isClip (c : CallSpec) : Bool :=
  match c.source with
  | .clip _ => true
  | .input _ => false

/-- The call is a clip call whose clip is not STORED. -/
def State.lacksClip (s : State) (c : CallSpec) : Bool :=
  match c.source with
  | .clip k => (s.storedClip k).isNone
  | .input _ => false

theorem isClip_iff (c : CallSpec) : c.isClip = true ↔ ∃ k, c.source = .clip k := by
  unfold CallSpec.isClip
  cases c.source <;> simp

theorem lacksClip_iff (s : State) (c : CallSpec) :
    s.lacksClip c = true ↔ ∃ k, c.source = .clip k ∧ ∀ d ∈ s.clip.clips, d.id = k → d.stored = false := by
  unfold State.lacksClip
  cases c.source with
  | clip k =>
    refine ⟨fun h => ⟨k, rfl, (clipMissing_iff s k).mp h⟩, fun ⟨j, hj, h⟩ => ?_⟩
    cases hj
    exact (clipMissing_iff s k).mpr h
  | input i => simp

/-- The checks of CALL PLACE that need the node's state, in their order (R136). -/
theorem callRefusal_eq (s : State) (c : CallSpec) :
    s.callRefusal c = if c.priority = 3 ∧ c.isClip = true ∧ s.clip.reserve = 0 then some .range
      else if s.lacksClip c = true then some .notFound
      else if c.priority = 3 then (if s.relay.calls.any (·.priority == 3) then some .busy else none)
      else if Config.maxCalls ≤ (s.relay.calls.filter (·.priority != 3)).length then some .noSpace
      else none := by
  unfold State.callRefusal CallSpec.isClip State.lacksClip
  cases c.source <;> rfl

/-- Settles O38: the checks of CALL PLACE in their order, and the acceptance. -/
theorem callPlaced : Obligations.CallPlaced := by
  intro o raw s hb hh refused
  refine ⟨fun h => callPlace_refuses hb hh (.inl ⟨h, rfl⟩), fun c hc => ?_⟩
  intro missing voiceless stopHeld full
  have refuses : ∀ code, s.callRefusal c = some code → refused code (BitVec.ofNat 8 code.value) :=
    fun code h => callPlace_refuses hb hh (.inr ⟨c, hc, h⟩)
  have hv : voiceless ↔ c.priority = 3 ∧ c.isClip = true ∧ s.clip.reserve = 0 := by rw [isClip_iff]
  have hm : missing ↔ s.lacksClip c = true := (lacksClip_iff s c).symm
  have hs : (s.relay.calls.any (·.priority == 3)) = true ↔ ∃ d ∈ s.relay.calls, d.priority = 3 := by
    simp [List.any_eq_true]
  have heq := callRefusal_eq s c
  refine ⟨fun h1 => refuses .range ?_, fun h1 h2 => refuses .notFound ?_, fun h1 h2 h3 => refuses .busy ?_,
    fun h1 h2 h3 => refuses .noSpace ?_, fun h1 h2 h3 h4 => ?_⟩
  · rw [heq, if_pos (hv.mp h1)]
  · rw [heq, if_neg (fun h => h1 (hv.mpr h)), if_pos (hm.mp h2)]
  · rw [heq, if_neg (fun h => h1 (hv.mpr h)), if_neg (fun h => h2 (hm.mpr h)), if_pos h3.1, if_pos (hs.mpr h3.2)]
  · rw [heq, if_neg (fun h => h1 (hv.mpr h)), if_neg (fun h => h2 (hm.mpr h)), if_neg h3.1]
    exact if_pos h3.2
  · have hn : s.callRefusal c = none := by
      rw [heq, if_neg (fun h => h1 (hv.mpr h)), if_neg (fun h => h2 (hm.mpr h))]
      by_cases hp : c.priority = 3
      · rw [if_pos hp, if_neg fun h => h3 ⟨hp, hs.mp h⟩]
      · rw [if_neg hp]
        exact if_neg fun h => h4 ⟨hp, h⟩
    exact ⟨now_replied (s.acceptCall c) hb hh (not_dropped o rfl) rfl
      (placeCall_accepted (s := s.onMsg fun m => m.placed o) hc hn) rfl rfl, rfl, rfl, rfl, rfl, rfl, rfl, rfl⟩

/-! ### CALL END and CALL CANCEL (R140, R141) -/

/-- A request for the pass that comes at its item, where nothing waits, is taken there and then. -/
theorem pass_taken {s : State} {o : Origin} {r : Request} {cancel : Bool} {k : U16} (ha : s.atItem .relayRequests)
    (hw : s.relay.requests = []) (hh : s.hears o) :
    (s.awake fun s => s.messageAtPass o r cancel k) = .next ((s.onMsg fun m => m.placed o).takeRelayRequest
      { cancel := cancel, id := k.toNat, place := s.msg.placeOf o }) := by
  rw [awake_next ha.1, State.messageAtPass, messageAt_atItem ha (relayRequests_none s hw) hh]

/-- CALL END that comes at its item (R140). -/
theorem callEnd_taken {s : State} {o : Origin} {k : U16} (ha : s.atItem .relayRequests) (hw : s.relay.requests = [])
    (hh : s.hears o) {res : Result} {t : State} (ht : callEnd k.toNat (s.onMsg fun m => m.placed o) = (res, t)) :
    exec (.callEnd o k) s = .next (t.answer (s.msg.placeOf o) res) := by
  refine (pass_taken ha hw hh).trans ?_
  unfold State.takeRelayRequest
  dsimp only
  rw [if_neg Bool.false_ne_true, ht]

/-- CALL CANCEL that comes at its item (R141). -/
theorem callCancel_taken {s : State} {o : Origin} {k : U16} (ha : s.atItem .relayRequests) (hw : s.relay.requests = [])
    (hh : s.hears o) {res : Result} {t : State} (ht : callCancel k.toNat (s.onMsg fun m => m.placed o) = (res, t)) :
    exec (.callCancel o k) s = .next (t.answer (s.msg.placeOf o) res) := by
  refine (pass_taken ha hw hh).trans ?_
  unfold State.takeRelayRequest
  dsimp only
  rw [if_pos rfl, ht]

/-- A refusal at the pass: nothing but the reply. -/
theorem refused_answer {s : State} {o : Origin} (hh : s.hears o) (code : ResultCode) :
    (s.onMsg fun m => m.placed o).answer (s.msg.placeOf o) { code := code } = s.replied o { code := code } :=
  answer_placed s s o _ hh.2.2 rfl rfl

/-- A message placed is no post. -/
theorem placed_grows (m : Msg) (o : Origin) : m.Grows (m.placed o) 0 := by
  cases o <;> exact ⟨rfl, rfl, ⟨[], (List.append_nil _).symm, Nat.le_refl 0⟩, ⟨[], (List.append_nil _).symm⟩, fun _ h => h⟩

/-- CALL_ENDED of a call, from the state before its message was placed to the one with its answer. -/
theorem endCall_reported {s t : State} {o : Origin} (c : Call) (e : CallEnd) (hm : t.msg = s.msg.placed o) (hl : t.link = s.link)
    (place : Option Nat) (r : Result) :
    s.reported ((t.endCall c e).answer place r) 1 (callEndedPost c.id e c.unanswered) := by
  have hg : s.msg.Grows (t.onRelay fun q => { q with calls := q.calls.filter fun d => d.id != c.id }).msg 0 :=
    hm ▸ placed_grows s.msg o
  exact reported_later (reported_before hg (congrArg Link.counter hl) (post_reported _ _)) (answer_grows _ place r)

/-- The on-air period of a call ends with none of its acknowledgements missing (R139). -/
theorem endOnAir_done {s : State} {c : Call} (h : c.ackRequired = false ∨ c.allAcked = true) :
    s.endOnAir c = (s.freeZones c.id).endCall { c with voice := none } .done := by
  unfold State.endOnAir
  dsimp only
  rw [if_neg]
  rcases h with h | h <;> simp [h]

/-- The on-air period of a call ends with acknowledgements missing (R139). -/
theorem endOnAir_awaits {s : State} {c : Call} (h1 : c.ackRequired = true) (h2 : c.allAcked = false) :
    s.endOnAir c = (s.freeZones c.id).onCall c.id fun d =>
      { d with state := .awaitAck, voice := none, ackCount := 0, since := s.boundaries } := by
  unfold State.endOnAir
  dsimp only
  rw [if_pos (by simp [h1, h2])]

/-- The end of an on-air period makes the call's zones FREE and touches nothing outside the relay controller but by its post. -/
theorem endOnAir_keeps (s : State) (c : Call) :
    (s.endOnAir c).relay.zones = (s.freeZones c.id).relay.zones ∧ (s.endOnAir c).outside = s.outside := by
  unfold State.endOnAir
  dsimp only
  split
  · rw [onCall_zones, onCall_outside, freeZones_outside]
    exact ⟨rfl, rfl⟩
  · rw [endCall_zones, endCall_outside, freeZones_outside]
    exact ⟨rfl, rfl⟩

/-- A call whose voice a CALL CANCEL stops, before it leaves the queue (R141). -/
def State.cancelStops (s : State) (c : Call) : State :=
  match c.state, c.source, c.voice with
  | .onAir true, .clip _, some v => (s.callStop v).tailZones c.zones v
  | _, _, _ => s

theorem cancelStops_keeps (s : State) (c : Call) :
    (s.cancelStops c).relay.calls = s.relay.calls ∧ (s.cancelStops c).msg = s.msg ∧ (s.cancelStops c).cue = s.cue
      ∧ (s.cancelStops c).clip.clips = s.clip.clips ∧ (s.cancelStops c).inputs = s.inputs ∧ (s.cancelStops c).mix = s.mix
      ∧ (s.cancelStops c).link = s.link := by
  unfold State.cancelStops
  split <;> exact ⟨rfl, rfl, rfl, rfl, rfl, rfl, rfl⟩

theorem callCancel_found {s : State} {k : Nat} {c : Call} (h : s.callOf k = some c) :
    callCancel k s = ({ code := .ok, data := byte c.state.byteOf },
      ((s.cancelStops c).freeZones k).endCall c .cancelledAsked) := by
  unfold callCancel
  rw [h]
  rfl

/-- Settles O39: CALL END by the state of its call, and CALL CANCEL. -/
theorem callsEndedOnRequest : Obligations.CallsEndedOnRequest := by
  refine ⟨fun o k s ha hw hh hn => ?_, fun o k c s ha hw hh hl hc hid => ?_⟩
  · have hf : (s.onMsg fun m => m.placed o).callOf k.toNat = none := (callGone_iff s _).mp hn
    have he : callEnd k.toNat (s.onMsg fun m => m.placed o) = refuse .notFound (s.onMsg fun m => m.placed o) := by
      unfold callEnd; rw [hf]
    have hx : callCancel k.toNat (s.onMsg fun m => m.placed o) = refuse .notFound (s.onMsg fun m => m.placed o) := by
      unfold callCancel; rw [hf]
    exact ⟨(callEnd_taken ha hw hh he).trans (congrArg _ (refused_answer hh _)),
      (callCancel_taken ha hw hh hx).trans (congrArg _ (refused_answer hh _))⟩
  · let q := s.onMsg fun m => m.placed o
    have hf : q.callOf k.toNat = some c := hid ▸ callOf_of_mem hl.1 hc
    refine ⟨fun j hj => ?_, fun i hi hst => ?_, fun i hi hst => ?_, fun i b hi hst => ?_, ?_⟩
    · have he : callEnd k.toNat q = refuse .range q := by unfold callEnd; rw [hf]; dsimp only; rw [hj]
      exact (callEnd_taken ha hw hh he).trans (congrArg _ (refused_answer hh _))
    · have he : callEnd k.toNat q = refuse .busy q := by unfold callEnd; rw [hf]; dsimp only; rw [hi, hst]
      exact (callEnd_taken ha hw hh he).trans (congrArg _ (refused_answer hh _))
    · have he : callEnd k.toNat q = ({ code := .ok }, q.endCall c .cancelledUnaired) := by
        unfold callEnd; rw [hf]; dsimp only; rw [hi, hst]
      refine ⟨_, callEnd_taken ha hw hh he, ?_, ?_, ?_⟩
      · show State.callGone (State.answer _ _ _) _
        rw [State.callGone, answer_relay]
        exact (callGone_iff _ _).mpr ((endCall_callOf q c _ c.id).trans (if_pos rfl))
      · exact endCall_reported (o := o) (t := q) c .cancelledUnaired rfl rfl _ _
      · exact outside_iff.mp (answer_outside ..)
    · have he : callEnd k.toNat q = ({ code := .ok, data := byte (if c.ackRequired && !c.allAcked then 2 else 3) },
          q.endOnAir c) := by
        unfold callEnd; rw [hf]; dsimp only; rw [hi, hst]
      obtain ⟨hz, hout⟩ := endOnAir_keeps q c
      refine ⟨_, callEnd_taken ha hw hh he, fun z => ?_, fun h => ⟨?_, ?_⟩, fun h1 h2 => ?_, ?_⟩
      · rw [answer_relay, hz]
        exact freeZones_gone q c.id z
      · rw [State.callGone, answer_relay, endOnAir_done h]
        exact (callGone_iff _ _).mpr ((endCall_callOf (q.freeZones c.id) { c with voice := none } _ c.id).trans (if_pos rfl))
      · rw [endOnAir_done h]
        exact endCall_reported (o := o) (t := q.freeZones c.id) { c with voice := none } .done rfl rfl _ _
      · rw [answer_relay, endOnAir_awaits h1 h2]
        have hd := onCall_callOf (q.freeZones c.id) c.id c.id (fun d =>
          { d with state := .awaitAck, voice := none, ackCount := 0, since := q.boundaries }) fun _ => rfl
        rw [if_pos rfl, freeZones_callOf, hid, hf] at hd
        obtain ⟨hm, hi⟩ := mem_of_callOf hd
        rw [hid]
        exact ⟨_, hm, hi, rfl, rfl, rfl, rfl⟩
      · exact outside_iff.mp ((answer_outside ..).trans hout)
    · obtain ⟨k1, k2, k3, k4, k5, k6, k7⟩ := cancelStops_keeps q c
      refine ⟨_, callCancel_taken ha hw hh (callCancel_found hf), ?_, ?_, fun z => ?_, ?_⟩
      · rw [State.callGone, answer_relay]
        exact (callGone_iff _ _).mpr ((endCall_callOf ((q.cancelStops c).freeZones k.toNat) c _ c.id).trans (if_pos rfl))
      · exact endCall_reported (o := o) (t := (q.cancelStops c).freeZones k.toNat) c .cancelledAsked k2 k7 _ _
      · rw [answer_relay, hid]
        exact freeZones_gone (q.cancelStops c) k.toNat z
      · have hout := (answer_outside (((q.cancelStops c).freeZones k.toNat).endCall c .cancelledAsked) (s.msg.placeOf o)
          { code := .ok, data := byte c.state.byteOf }).trans
          ((endCall_outside _ c .cancelledAsked).trans (freeZones_outside (q.cancelStops c) k.toNat))
        obtain ⟨a1, a2, a3, a4, a5⟩ := outside_iff.mp hout
        exact ⟨a1.trans k3, (congrArg ClipPlayer.clips a2).trans k4, a3.trans k5, a4.trans k6, a5.trans k7⟩

end Sys2Proof.Machine

/-! SUPPORT. The steps of a relay pass that take every call in turn: each turn touches the record of one call. The limits on air, of
the acknowledgements and of waiting. -/

namespace Sys2Proof.Machine

open Sys2Proof

/-! ### Turns -/

/-- A step of a pass in which the calls of some ids have had their turns, each of them posting a bounded number of events: every
other call is as it was, zones are at most made FREE, and nothing outside the relay controller has changed. -/
structure State.Turns (s t : State) (ks : List Nat) (n : Nat) : Prop where
  others : ∀ j, j ∉ ks → t.callOf j = s.callOf j
  freed : ∀ (z : Fin 16) (j : Nat), t.relay.zones[z].call = some j → s.relay.zones[z].call = some j
  grows : s.msg.Grows t.msg n
  outside : t.outside = s.outside
  boundaries : t.boundaries = s.boundaries

namespace State.Turns

theorem refl (s : State) : s.Turns s [] 0 := ⟨fun _ _ => rfl, fun _ _ h => h, grows_refl _, rfl, rfl⟩

theorem trans {s t u : State} {ks ls : List Nat} {n m : Nat} (h : s.Turns t ks n) (g : t.Turns u ls m) :
    s.Turns u (ks ++ ls) (n + m) where
  others j hj := by
    rw [List.mem_append, not_or] at hj
    exact (g.others j hj.2).trans (h.others j hj.1)
  freed z j hz := h.freed z j (g.freed z j hz)
  grows := grows_trans h.grows g.grows
  outside := g.outside.trans h.outside
  boundaries := g.boundaries.trans h.boundaries

theorem fold {f : State → Nat → State} {n : Nat} (hf : ∀ (s : State) (k : Nat), s.Turns (f s k) [k] n) (ks : List Nat) (s : State) :
    s.Turns (ks.foldl f s) ks (n * ks.length) := by
  induction ks generalizing s with
  | nil => exact refl s
  | cons k ks ih =>
    have h := (hf s k).trans (ih (f s k))
    rw [List.length_cons, Nat.mul_succ, Nat.add_comm (n * ks.length)]
    exact h

/-- The link is outside the relay controller. -/
theorem link {s t : State} {ks : List Nat} {n : Nat} (h : s.Turns t ks n) : t.link = s.link := (outside_iff.mp h.outside).2.2.2.2

/-- The turn of one call among those of all: it comes in a state that has its record, and leaves it to the end of the step. -/
theorem reaches {f : State → Nat → State} {n k : Nat} (hf : ∀ (s : State) (k : Nat), s.Turns (f s k) [k] n) {ks : List Nat} (hk : k ∈ ks)
    (hn : ks.Nodup) (s : State) :
    ∃ (p : State) (as bs : List Nat), s.Turns p as (n * as.length) ∧ (f p k).Turns (ks.foldl f s) bs (n * bs.length)
      ∧ p.callOf k = s.callOf k ∧ (ks.foldl f s).callOf k = (f p k).callOf k ∧ as.length + 1 + bs.length = ks.length
      ∧ ks = as ++ k :: bs ∧ p = as.foldl f s := by
  obtain ⟨as, bs, rfl⟩ := List.append_of_mem hk
  have hn' := List.nodup_append.mp hn
  have ha : k ∉ as := fun h => hn'.2.2 k h k List.mem_cons_self rfl
  have hb : k ∉ bs := (List.nodup_cons.mp hn'.2.1).1
  have h1 := fold hf as s
  have h2 := fold hf bs (f (as.foldl f s) k)
  rw [List.foldl_append, List.foldl_cons]
  refine ⟨as.foldl f s, as, bs, h1, h2, h1.others k ha, h2.others k hb, ?_, rfl, rfl⟩
  rw [List.length_append, List.length_cons]
  omega

end State.Turns

/-- An event reported with room for some posts is reported with room for more. -/
theorem reported_mono {s t : State} {m n : Nat} {p : Post} (h : s.reported t m p) (hmn : m ≤ n) : s.reported t n p :=
  ⟨h.1, fun hb hr hl => h.2.1 hb hr (by omega), h.2.2⟩

/-- Taking an item off what is due is no post. -/
theorem reported_without {s t : State} {it : Item} {n : Nat} {p : Post} (h : (s.without it).reported t n p) : s.reported t n p := h

/-- An event of one call's turn is an event of the step. -/
theorem reported_of_turn {s p q t : State} {as bs : List Nat} {n m r room : Nat} {e : Post} (h : s.Turns p as n)
    (hq : p.reported q r e) (g : q.Turns t bs m) (hr : r + n ≤ room) : s.reported t room e :=
  reported_mono (reported_later (reported_before h.grows (congrArg Link.counter h.link) hq) g.grows) hr

/-- A turn that only changes the record of its call. -/
theorem turns_onCall (s : State) (k : Nat) (f : Call → Call) (hf : ∀ c : Call, (f c).id = c.id) : s.Turns (s.onCall k f) [k] 0 where
  others j hj := (onCall_callOf s k j f hf).trans (if_neg fun h => hj (List.mem_singleton.mpr h))
  freed _ _ h := h
  grows := grows_refl _
  outside := rfl
  boundaries := rfl

/-- The same, for a record found: its new record stands in its place. -/
theorem onCall_const (s : State) {k : Nat} {c d : Call} (hc : s.callOf k = some c) (hd : d.id = c.id) :
    (s.onCall k fun _ => d).callOf k = some d ∧ s.Turns (s.onCall k fun _ => d) [k] 0 := by
  have hck := (mem_of_callOf hc).2
  have hm : (s.onCall k fun _ => d) = s.onCall k fun x => { d with id := x.id } := by
    have hmap : (s.relay.calls.map fun x => if x.id = k then d else x)
        = s.relay.calls.map fun x => if x.id = k then { d with id := x.id } else x := by
      refine List.map_congr_left fun x _ => ?_
      by_cases hx : x.id = k
      · have he : x.id = d.id := hx.trans (hck.symm.trans hd.symm)
        rw [if_pos hx, if_pos hx, he]
      · rw [if_neg hx, if_neg hx]
    exact congrArg (fun cs => s.onRelay fun r => { r with calls := cs }) hmap
  rw [hm]
  refine ⟨(onCall_callOf s k k (fun x => { d with id := x.id }) fun _ => rfl).trans ?_,
    turns_onCall s k (fun x => { d with id := x.id }) fun _ => rfl⟩
  rw [if_pos rfl, hc, Option.map_some, ← hd]

theorem turns_post (s : State) (k : Nat) (p : Post) : s.Turns (s.post p) [k] 1 where
  others _ _ := rfl
  freed _ _ h := h
  grows := post_grows s p
  outside := rfl
  boundaries := rfl

/-- Making zones FREE touches the relay controller alone. -/
theorem freeZones_rest (s : State) (k : Nat) : (s.freeZones k).msg = s.msg ∧ (s.freeZones k).boundaries = s.boundaries := by
  unfold State.freeZones
  exact ⟨State.onRelay_msg .., State.onRelay_boundaries ..⟩

theorem turns_freeZones (s : State) (k : Nat) : s.Turns (s.freeZones k) [k] 0 where
  others _ _ := freeZones_callOf ..
  freed z j h := by
    rw [freeZones_call] at h
    split at h
    · cases h
    · exact h
  grows := grows_of_eq (freeZones_rest s k).1
  outside := freeZones_outside ..
  boundaries := (freeZones_rest s k).2

theorem turns_endCall (s : State) {c : Call} {k : Nat} (hk : c.id = k) (e : CallEnd) : s.Turns (s.endCall c e) [k] 1 where
  others j hj := (endCall_callOf s c e j).trans (if_neg fun h => hj (List.mem_singleton.mpr (h.trans hk)))
  freed _ _ h := h
  grows := post_grows (s.onRelay fun r => { r with calls := r.calls.filter fun d => d.id != c.id }) _
  outside := rfl
  boundaries := rfl

/-- Turns of the same call, one after the other. -/
theorem turns_same {s t u : State} {k n m : Nat} (h : s.Turns t [k] n) (g : t.Turns u [k] m) : s.Turns u [k] (n + m) :=
  ⟨fun j hj => (g.others j hj).trans (h.others j hj), fun z j hz => h.freed z j (g.freed z j hz), grows_trans h.grows g.grows,
    g.outside.trans h.outside, g.boundaries.trans h.boundaries⟩

theorem turns_mono {s t : State} {k n m : Nat} (h : s.Turns t [k] n) (hn : n ≤ m) : s.Turns t [k] m :=
  ⟨h.others, h.freed, grows_mono h.grows hn, h.outside, h.boundaries⟩

theorem turns_id (s : State) (k n : Nat) : s.Turns s [k] n :=
  ⟨fun _ _ => rfl, fun _ _ h => h, grows_mono (grows_refl _) (Nat.zero_le n), rfl, rfl⟩

/-- CALL_ENDED is reported by the state in which the call ends. -/
theorem reported_endCall (s : State) (c : Call) (e : CallEnd) :
    s.reported (s.endCall c e) 1 (callEndedPost c.id e c.unanswered) :=
  post_reported (s.onRelay fun r => { r with calls := r.calls.filter fun d => d.id != c.id }) _

theorem endOnAir_turns (s : State) {c : Call} {k : Nat} (hk : c.id = k) : s.Turns (s.endOnAir c) [k] 1 := by
  subst hk
  by_cases h : c.ackRequired = true ∧ c.allAcked = false
  · rw [endOnAir_awaits h.1 h.2]
    exact turns_mono (turns_same (turns_freeZones s c.id) (turns_onCall _ _ _ fun _ => rfl)) (Nat.zero_le 1)
  · have hd : c.ackRequired = false ∨ c.allAcked = true := by
      cases h1 : c.ackRequired <;> cases h2 : c.allAcked <;> simp_all
    rw [endOnAir_done hd]
    exact turns_same (turns_freeZones s c.id) (turns_endCall (s.freeZones c.id) (c := { c with voice := none }) rfl .done)

/-! ### Step 1: the limit on air (R139) -/

theorem countOnAir_turns (s : State) (k : Nat) : s.Turns (s.countOnAir k) [k] 2 := by
  unfold State.countOnAir
  split
  · next c hc =>
    split
    · split
      · dsimp only
        obtain ⟨-, h1⟩ := onCall_const s (d := { c with onAirCount := c.onAirCount + 1 }) hc rfl
        split
        · have h2 := turns_post (s.onCall k fun _ => { c with onAirCount := c.onAirCount + 1 }) k (onairLimitPost k)
          have h3 := endOnAir_turns ((s.onCall k fun _ => { c with onAirCount := c.onAirCount + 1 }).post (onairLimitPost k))
            (c := { c with onAirCount := c.onAirCount + 1 }) (mem_of_callOf hc).2
          exact turns_same (turns_same h1 h2) h3
        · exact turns_mono h1 (Nat.zero_le 2)
      · exact turns_id s k 2
    · exact turns_id s k 2
  · exact turns_id s k 2

/-- A live call at its max on-air, in its turn (R139). -/
theorem countOnAir_limit {s : State} {k : Nat} {c : Call} {i : Fin 64} (hc : s.callOf k = some c) (hi : c.source = .input i)
    (ha : c.isOnAir = true) (hs : c.since < s.boundaries) (hm : c.maxOnAir ≤ c.onAirCount + 1) :
    s.countOnAir k = ((s.onCall k fun _ => { c with onAirCount := c.onAirCount + 1 }).post (onairLimitPost k)).endOnAir
      { c with onAirCount := c.onAirCount + 1 } := by
  unfold State.countOnAir
  rw [hc]
  dsimp only
  rw [hi]
  dsimp only
  rw [if_pos ⟨ha, hs⟩, if_pos hm]

/-- With no reports step 1 of the pass counts the calls on air. -/
theorem relayEnds_eq {s : State} (h : s.relay.reports = []) :
    s.relayEnds = (s.relay.calls.map Call.id).foldl State.countOnAir s := by
  have hs : (s.onRelay fun r => { r with reports := [] }) = s := by
    show { s with relay := { s.relay with reports := [] } } = s
    rw [← h]
  unfold State.relayEnds
  rw [h]
  show (((s.onRelay fun r => { r with reports := [] }).relay.calls.map Call.id).foldl State.countOnAir
    (s.onRelay fun r => { r with reports := [] })) = _
  rw [hs]

/-- Settles O40: the call's turn among those of all. -/
theorem onAirLimitEndsCall : Obligations.OnAirLimitEndsCall := by
  intro k c i b s ha hl hr hc hid hi hst hs hm
  have hf : s.callOf k.toNat = some c := hid ▸ callOf_of_mem hl.1 hc
  have hon : c.isOnAir = true := by unfold Call.isOnAir; rw [hst]
  let w := s.without .relayEnds
  have hkm : k.toNat ∈ w.relay.calls.map Call.id := hid ▸ List.mem_map_of_mem hc
  obtain ⟨p, as, bs, h1, h2, hp, ht, hlen, -⟩ := State.Turns.reaches (f := State.countOnAir) (n := 2) countOnAir_turns hkm hl.1 w
  have hpc : p.callOf k.toNat = some c := hp.trans hf
  have hq := countOnAir_limit hpc hi hon (h1.boundaries.symm ▸ hs) hm
  have hlen' : as.length + 1 + bs.length = s.relay.calls.length := hlen.trans (List.length_map _)
  let d : Call := { c with onAirCount := c.onAirCount + 1 }
  let p1 := p.onCall k.toNat fun _ => d
  let p2 := p1.post (onairLimitPost k.toNat)
  obtain ⟨hd, h3⟩ := onCall_const p (d := d) hpc rfl
  have hdid : d.id = k.toNat := hid
  have hp2 : p2.callOf k.toNat = some d := hd
  rw [hq] at h2 ht
  have hpost : p.reported p2 1 (onairLimitPost k.toNat) :=
    reported_before h3.grows (congrArg Link.counter h3.link) (post_reported p1 _)
  refine ⟨_, (stepIn_next ha ?_).trans (congrArg _ ((runDue_atItem ha).trans (relayEnds_eq (s := w) hr))), fun z hz => ?_, ?_,
    fun h => ⟨?_, ?_⟩, fun ha1 ha2 => ?_, ?_⟩
  · rw [hf]
    simp [Call.isLive, hi, hon, hs, hm]
  · have hz2 := h2.freed z c.id hz
    rw [(endOnAir_keeps p2 d).1] at hz2
    exact freeZones_gone p2 d.id z hz2
  · rw [hid]
    exact reported_without (reported_of_turn h1 (reported_later hpost (endOnAir_turns p2 hdid).grows) h2 (by omega))
  · rw [callGone_iff, hid, ht, endOnAir_done (c := d) h]
    exact (endCall_callOf (p2.freeZones d.id) { d with voice := none } .done k.toNat).trans (if_pos hdid.symm)
  · have he : p2.reported (p2.endOnAir d) 1 (callEndedPost d.id .done d.unanswered) := by
      rw [endOnAir_done (c := d) h]
      exact reported_endCall (p2.freeZones d.id) { d with voice := none } .done
    have h4 := turns_post p1 k.toNat (onairLimitPost k.toNat)
    exact reported_without (reported_of_turn h1 (reported_before (turns_same h3 h4).grows (congrArg Link.counter (turns_same h3 h4).link) he) h2
      (by omega))
  · rw [endOnAir_awaits (c := d) ha1 ha2] at ht
    have hx := onCall_callOf (p2.freeZones d.id) d.id k.toNat (fun x =>
      { x with state := .awaitAck, voice := none, ackCount := 0, since := p2.boundaries }) fun _ => rfl
    rw [if_pos hdid.symm, freeZones_callOf, hp2] at hx
    obtain ⟨hm1, hm2⟩ := mem_of_callOf (ht.trans hx)
    exact ⟨_, hm1, hm2.trans hid.symm, rfl, rfl, rfl, rfl⟩
  · have ho := h2.outside.trans ((endOnAir_keeps p2 d).2.trans h1.outside)
    exact outside_iff.mp ho

end Sys2Proof.Machine

/-! SUPPORT. The ack counters and the wait counters of a relay pass. -/

namespace Sys2Proof.Machine

open Sys2Proof

/-! ### A call that waits again (R143, R149, R151) -/

/-- A call passed three times reserves; its record is otherwise as it was. -/
theorem reserveZones_callOf {s : State} {k : Nat} {c : Call} (h : s.callOf k = some c) :
    ∃ r, (s.reserveZones k).callOf k = some { c with reserved := r } := by
  have hid : ∀ x : Call, (if x.passes = Config.passLimit then { x with reserved := x.zones &&& ~~~s.reservedByOthers k }
      else x).id = x.id := by intro x; split <;> rfl
  have hk := onCall_callOf s k k (fun x => if x.passes = Config.passLimit then
    { x with reserved := x.zones &&& ~~~s.reservedByOthers k } else x) hid
  rw [if_pos rfl, h, Option.map_some] at hk
  by_cases hp : c.passes = Config.passLimit
  · exact ⟨c.zones &&& ~~~s.reservedByOthers k, hk.trans (congrArg some (if_pos hp))⟩
  · exact ⟨c.reserved, hk.trans (congrArg some (if_neg hp))⟩

theorem reserveZones_turns (s : State) (k : Nat) : s.Turns (s.reserveZones k) [k] 0 :=
  turns_onCall s k _ fun x => by split <;> rfl

theorem backToWaiting_callOf {s : State} {k : Nat} {c : Call} (h : s.callOf k = some c) :
    ∃ r, (s.backToWaiting k).callOf k = some { c with
      state := .waiting, voice := none, waitCount := 0, acks := Vector.replicate 16 .notAsked, since := s.boundaries
      reserved := r } := by
  have hk := onCall_callOf s k k (fun c => { c with
    state := .waiting, voice := none, waitCount := 0, acks := Vector.replicate 16 .notAsked, since := s.boundaries })
    fun _ => rfl
  rw [if_pos rfl, h] at hk
  exact reserveZones_callOf hk

theorem backToWaiting_turns (s : State) (k : Nat) : s.Turns (s.backToWaiting k) [k] 0 :=
  turns_same (turns_onCall s k (fun c => { c with
    state := .waiting, voice := none, waitCount := 0, acks := Vector.replicate 16 .notAsked, since := s.boundaries })
    fun _ => rfl) (reserveZones_turns _ k)

/-! ### Step 4: ack counters (R149) -/

/-- A call at its ack timeout, in its turn. -/
theorem countAck_timeout {s : State} {k : Nat} {c : Call} (hc : s.callOf k = some c) (hst : c.state = .awaitAck)
    (hs : c.since < s.boundaries) (hm : c.ackTimeout ≤ c.ackCount + 1) :
    s.countAck k = if 0 < c.repeats then
        ((s.onCall k fun _ => { c with ackCount := c.ackCount + 1 }).onCall k fun d =>
          { d with zones := c.unanswered, repeats := c.repeats - 1 }).backToWaiting k
      else (s.onCall k fun _ => { c with ackCount := c.ackCount + 1 }).endCall { c with ackCount := c.ackCount + 1 }
        .unanswered := by
  unfold State.countAck
  rw [hc]
  dsimp only
  rw [if_pos ⟨hst, hs⟩, if_pos hm]

theorem countAck_turns (s : State) (k : Nat) : s.Turns (s.countAck k) [k] 1 := by
  cases hc : s.callOf k with
  | none =>
    have h : s.countAck k = s := by unfold State.countAck; rw [hc]
    rw [h]; exact turns_id s k 1
  | some c =>
    obtain ⟨-, h1⟩ := onCall_const s (d := { c with ackCount := c.ackCount + 1 }) hc rfl
    by_cases h : c.state = .awaitAck ∧ c.since < s.boundaries
    · by_cases hm : c.ackTimeout ≤ c.ackCount + 1
      · rw [countAck_timeout hc h.1 h.2 hm]
        split
        · exact turns_mono (turns_same (turns_same h1 (turns_onCall _ k
            (fun d => { d with zones := c.unanswered, repeats := c.repeats - 1 }) fun _ => rfl)) (backToWaiting_turns _ k))
            (Nat.zero_le 1)
        · exact turns_same h1 (turns_endCall _ (c := { c with ackCount := c.ackCount + 1 }) (mem_of_callOf hc).2 .unanswered)
      · have hx : s.countAck k = s.onCall k fun _ => { c with ackCount := c.ackCount + 1 } := by
          unfold State.countAck; rw [hc]; dsimp only; rw [if_pos h, if_neg hm]
        rw [hx]; exact turns_mono h1 (Nat.zero_le 1)
    · have hx : s.countAck k = s := by unfold State.countAck; rw [hc]; exact if_neg h
      rw [hx]; exact turns_id s k 1

theorem countAck_zones (s : State) (k : Nat) : (s.countAck k).relay.zones = s.relay.zones := by
  unfold State.countAck
  split
  · dsimp only
    (repeat' split) <;> rfl
  · rfl

/-- Settles O41: the call's turn among those of all. -/
theorem ackTimeoutRepeats : Obligations.AckTimeoutRepeats := by
  intro k c s ha hl hc hid hst hs hm
  have hf : s.callOf k.toNat = some c := hid ▸ callOf_of_mem hl.1 hc
  let w := s.without .relayAcks
  have hkm : k.toNat ∈ w.relay.calls.map Call.id := hid ▸ List.mem_map_of_mem hc
  obtain ⟨p, as, bs, h1, h2, hp, ht, hlen, -⟩ :=
    State.Turns.reaches (f := State.countAck) (n := 1) countAck_turns hkm hl.1 w
  have hpc : p.callOf k.toNat = some c := hp.trans hf
  have hq := countAck_timeout hpc hst (h1.boundaries.symm ▸ hs) hm
  have hlen' : as.length + 1 + bs.length = s.relay.calls.length := hlen.trans (List.length_map _)
  let d : Call := { c with ackCount := c.ackCount + 1 }
  obtain ⟨hd, h3⟩ := onCall_const p (d := d) hpc rfl
  refine ⟨_, (stepIn_next ha ?_).trans (congrArg _ (runDue_atItem ha)), fun hr => ⟨?_, ?_⟩, fun n hr => ?_, ?_, ?_⟩
  · rw [hf]
    simp [hst, hs, hm]
  · rw [hq, if_neg (by omega)] at ht
    rw [callGone_iff, hid]
    exact ht.trans ((endCall_callOf _ d .unanswered k.toNat).trans (if_pos hid.symm))
  · rw [hq, if_neg (by omega)] at h2
    exact reported_without (reported_of_turn h1 (reported_before h3.grows (congrArg Link.counter h3.link)
      (reported_endCall _ d .unanswered)) h2 (by omega))
  · rw [hq, if_pos (by omega)] at ht
    have hd2 := onCall_callOf (p.onCall k.toNat fun _ => d) k.toNat k.toNat
      (fun x => { x with zones := c.unanswered, repeats := c.repeats - 1 }) fun _ => rfl
    rw [if_pos rfl, hd] at hd2
    obtain ⟨r, hb⟩ := backToWaiting_callOf hd2
    obtain ⟨hm1, hm2⟩ := mem_of_callOf (ht.trans hb)
    exact ⟨_, hm1, hm2.trans hid.symm, rfl, by show c.repeats - 1 = n; omega, rfl, rfl, rfl⟩
  · exact foldl_keeps (fun t => t.relay.zones) State.countAck countAck_zones _ _
  · exact outside_iff.mp (h2.outside.trans ((countAck_turns p k.toNat).outside.trans h1.outside))

/-! ### Step 7: wait counters (R144) -/

/-- A call that waits, in its turn. -/
theorem countWait_waiting {s : State} {k : Nat} {c : Call} (hc : s.callOf k = some c) (hst : c.state = .waiting)
    (hp : c.priority ≠ 3) (hs : c.fromPass ≤ s.boundaries) :
    s.countWait k = if c.waitLimit ≤ c.waitCount + 1 then
        (s.onCall k fun _ => { c with waitCount := c.waitCount + 1 }).endCall { c with waitCount := c.waitCount + 1 } .expired
      else s.onCall k fun _ => { c with waitCount := c.waitCount + 1 } := by
  unfold State.countWait
  rw [hc]
  dsimp only
  rw [if_pos ⟨hst, hp, decide_eq_true hs⟩]

theorem countWait_turns (s : State) (k : Nat) : s.Turns (s.countWait k) [k] 1 := by
  unfold State.countWait
  split
  · next c hc =>
    obtain ⟨-, h1⟩ := onCall_const s (d := { c with waitCount := c.waitCount + 1 }) hc rfl
    split
    · dsimp only
      split
      · exact turns_same h1 (turns_endCall _ (c := { c with waitCount := c.waitCount + 1 }) (mem_of_callOf hc).2 .expired)
      · exact turns_mono h1 (Nat.zero_le 1)
    · exact turns_id s k 1
  · exact turns_id s k 1

theorem countWait_zones (s : State) (k : Nat) : (s.countWait k).relay.zones = s.relay.zones := by
  unfold State.countWait
  split
  · dsimp only
    (repeat' split) <;> rfl
  · rfl

/-- Settles O42: the call's turn, and the turn of any other that waits. -/
theorem waitingCallExpires : Obligations.WaitingCallExpires := by
  intro k c s ha hl hc hid hst hpr hs hm
  have hf : s.callOf k.toNat = some c := hid ▸ callOf_of_mem hl.1 hc
  let w := s.without .relayWaits
  have reach : ∀ x ∈ s.relay.calls, _ := fun x hx =>
    State.Turns.reaches (f := State.countWait) (n := 1) (k := x.id) countWait_turns (List.mem_map_of_mem hx) hl.1 w
  obtain ⟨p, as, bs, h1, h2, hp, ht, hlen, -⟩ := reach c hc
  have hpc : p.callOf c.id = some c := hp.trans (callOf_of_mem hl.1 hc)
  have hq := countWait_waiting hpc hst hpr (h1.boundaries.symm ▸ hs)
  rw [if_pos hm] at hq
  have hlen' : as.length + 1 + bs.length = s.relay.calls.length := hlen.trans (List.length_map _)
  let d : Call := { c with waitCount := c.waitCount + 1 }
  obtain ⟨-, h3⟩ := onCall_const p (d := d) hpc rfl
  refine ⟨_, (stepIn_next ha ?_).trans (congrArg _ (runDue_atItem ha)), ?_, ?_, fun x hx hst' hpr' hs' hm' => ?_, ?_, ?_⟩
  · rw [hf]
    simp [hst, hpr, State.takesPart, hs, hm]
  · rw [hq] at ht
    rw [callGone_iff]
    exact ht.trans ((endCall_callOf _ d .expired c.id).trans (if_pos rfl))
  · rw [hq] at h2
    exact reported_without (reported_of_turn h1 (reported_before h3.grows (congrArg Link.counter h3.link)
      (reported_endCall _ d .expired)) h2 (by omega))
  · obtain ⟨p', as', bs', g1, g2, gp, gt, -⟩ := reach x hx
    have hpx : p'.callOf x.id = some x := gp.trans (callOf_of_mem hl.1 hx)
    have gq := countWait_waiting hpx hst' hpr' (g1.boundaries.symm ▸ hs')
    rw [if_neg (by omega)] at gq
    rw [gq] at gt
    exact (mem_of_callOf (gt.trans (onCall_const p' (d := { x with waitCount := x.waitCount + 1 }) hpx rfl).1)).1
  · exact foldl_keeps (fun t => t.relay.zones) State.countWait countWait_zones _ _
  · exact outside_iff.mp (h2.outside.trans ((countWait_turns p c.id).outside.trans h1.outside))

end Sys2Proof.Machine

/-! SUPPORT. The scheduling step of a relay pass: who goes on air, and whom it passes. -/

namespace Sys2Proof.Machine

open Sys2Proof

/-! ### The scheduling order (R142) -/

/-- The order holds the calls of the queue. -/
theorem mem_scheduleOrder (l : List Call) (c : Call) : c ∈ scheduleOrder l ↔ c ∈ l := by
  have hp : c.priority = 3 ∨ c.priority = 2 ∨ c.priority = 1 ∨ c.priority = 0 := by
    generalize c.priority = p; revert p; decide
  unfold scheduleOrder
  simp only [List.mem_append, List.mem_filter, beq_iff_eq]
  rcases hp with h | h | h | h <;> simp [h]

/-- The order holds each call once. -/
theorem nodup_scheduleOrder {l : List Call} (h : l.Nodup) : (scheduleOrder l).Nodup := by
  have apart : ∀ (p q : Fin 4), p ≠ q → ∀ a ∈ l.filter (·.priority == p), ∀ b ∈ l.filter (·.priority == q), a ≠ b := by
    rintro p q hpq a ha b hb rfl
    have h1 := (List.mem_filter.mp ha).2
    have h2 := (List.mem_filter.mp hb).2
    exact hpq ((beq_iff_eq.mp h1).symm.trans (beq_iff_eq.mp h2))
  unfold scheduleOrder
  refine List.nodup_append.mpr ⟨List.nodup_append.mpr ⟨List.nodup_append.mpr ⟨h.filter _, h.filter _,
    apart 3 2 (by decide)⟩, h.filter _, ?_⟩, h.filter _, ?_⟩
  · intro a ha b hb
    rcases List.mem_append.mp ha with ha | ha
    · exact apart 3 1 (by decide) a ha b hb
    · exact apart 2 1 (by decide) a ha b hb
  · intro a ha b hb
    rcases List.mem_append.mp ha with ha | ha
    · rcases List.mem_append.mp ha with ha | ha
      · exact apart 3 0 (by decide) a ha b hb
      · exact apart 2 0 (by decide) a ha b hb
    · exact apart 1 0 (by decide) a ha b hb

/-- The order around a call: those before it are of other ids, and so are those after it. -/
theorem scheduleOrder_split {l : List Call} (hn : (l.map Call.id).Nodup) {c : Call} (hc : c ∈ l) :
    ∃ rest, scheduleOrder l = (scheduleOrder l).takeWhile (fun d => d.id != c.id) ++ c :: rest
      ∧ ∀ d ∈ rest, d ∈ l ∧ d.id ≠ c.id := by
  have same : ∀ d ∈ l, d.id = c.id → d = c := fun d hd he => call_of_id hn hd hc he
  have hmem : c ∈ scheduleOrder l := (mem_scheduleOrder l c).mpr hc
  have hnd := nodup_scheduleOrder (List.Nodup.of_map _ hn)
  have hall : ∀ d ∈ scheduleOrder l, d ∈ l := fun d hd => (mem_scheduleOrder l d).mp hd
  generalize scheduleOrder l = o at hmem hnd hall
  induction o with
  | nil => cases hmem
  | cons a o ih =>
    by_cases ha : a.id = c.id
    · have hac : a = c := same a (hall a List.mem_cons_self) ha
      subst hac
      refine ⟨o, ?_, fun d hd => ⟨hall d (List.mem_cons_of_mem _ hd), fun he => ?_⟩⟩
      · rw [List.takeWhile_cons, if_neg (by simp), List.nil_append]
      · have := same d (hall d (List.mem_cons_of_mem _ hd)) he
        subst this
        exact (List.nodup_cons.mp hnd).1 hd
    · have hm : c ∈ o := (List.mem_cons.mp hmem).resolve_left fun h => ha (h ▸ rfl)
      obtain ⟨rest, h1, h2⟩ := ih hm (List.nodup_cons.mp hnd).2 fun d hd => hall d (List.mem_cons_of_mem _ hd)
      refine ⟨rest, ?_, h2⟩
      rw [List.takeWhile_cons, if_pos (by simpa using ha), List.cons_append, ← h1]

/-! ### Whether a call may go on air (R142) -/

/-- Every zone of the call's set is FREE and reserved by no other. -/
theorem zonesOpen_iff (s : State) (c : Call) : s.zonesOpen c = true ↔ ∀ z : Fin 16, c.zones.getLsbD z.val = true →
    s.relay.zones[z].call = none ∧ ∀ d ∈ s.relay.calls, d.id ≠ c.id → d.reserved.getLsbD z.val = false := by
  unfold State.zonesOpen
  rw [Bool.and_eq_true, List.all_eq_true, disjoint_zones]
  constructor
  · rintro ⟨h1, h2⟩ z hz
    exact ⟨Option.isNone_iff_eq_none.mp (h1 z ((mem_zonesOf _ z).mpr hz)), (reservedByOthers_clear s c.id z).mp (h2 z hz)⟩
  · intro h
    exact ⟨fun z hz => Option.isNone_iff_eq_none.mpr (h z ((mem_zonesOf _ z).mp hz)).1,
      fun z hz => (reservedByOthers_clear s c.id z).mpr (h z hz).2⟩

/-- Two zone sets share a zone. -/
theorem shared_zones (x y : BitVec 16) : (x &&& y != 0) = true ↔
    ∃ z : Fin 16, x.getLsbD z.val = true ∧ y.getLsbD z.val = true := by
  have h := disjoint_zones x y
  constructor
  · intro hne
    by_contra hx
    have : (x &&& y == 0) = true := h.mpr fun z hz => by
      cases hy : y.getLsbD z.val with
      | false => rfl
      | true => exact absurd ⟨z, hz, hy⟩ hx
    rw [bne, this] at hne
    cases hne
  · rintro ⟨z, h1, h2⟩
    rw [bne, Bool.not_eq_true', ← Bool.not_eq_true, h]
    intro hx
    rw [hx z h1] at h2
    cases h2

/-- A call that may not go on air. -/
theorem considerCall_not {s : State} {k : Nat} {c : Call} (hc : s.callOf k = some c) (h : s.admission c = none) :
    s.considerCall k = s := by
  unfold State.considerCall
  rw [hc]
  dsimp only
  rw [h]

/-- A call that goes on air, and the calls it passes (R142, R143). -/
theorem considerCall_goes {s : State} {k : Nat} {c : Call} {v : Option (Fin 8)} (hc : s.callOf k = some c)
    (h : s.admission c = some v) :
    s.considerCall k = (s.passedBy c).foldl State.passCall (s.goOnAir k false v) := by
  unfold State.considerCall
  rw [hc]
  dsimp only
  rw [h]

/-- The conditions of R142 that fail. -/
theorem admission_shut {s : State} {c : Call}
    (h : c.state ≠ .waiting ∨ c.priority = 3 ∨ s.boundaries < c.fromPass ∨ s.zonesOpen c = false) : s.admission c = none := by
  unfold State.admission
  rw [if_neg]
  rintro ⟨h1, h2, h3, h4⟩
  rcases h with h | h | h | h
  · exact h h1
  · exact h2 h
  · exact absurd (of_decide_eq_true h3) (Nat.not_le.mpr h)
  · rw [h] at h4; cases h4

/-- The conditions of R142 that hold, but for the voice. -/
theorem admission_open {s : State} {c : Call} (h1 : c.state = .waiting) (h2 : c.priority ≠ 3) (h3 : c.fromPass ≤ s.boundaries)
    (h4 : s.zonesOpen c = true) :
    (∀ i, c.source = .input i → s.admission c = some none)
      ∧ ∀ k, c.source = .clip k → s.admission c = (s.freeCallVoice c.id).map some := by
  have hx : c.state = .waiting ∧ c.priority ≠ 3 ∧ s.takesPart c = true ∧ s.zonesOpen c = true :=
    ⟨h1, h2, decide_eq_true h3, h4⟩
  unfold State.admission
  rw [if_pos hx]
  refine ⟨fun i hi => ?_, fun k hk => ?_⟩
  · rw [hi]
  · rw [hk]

/-- A clip call for which no voice is free does not go on air. -/
theorem admission_voiceless {s : State} {c : Call} {k : Nat} (hk : c.source = .clip k) (hv : s.freeCallVoice c.id = none) :
    s.admission c = none := by
  unfold State.admission
  split
  · rw [hk]; dsimp only; rw [hv]; rfl
  · rfl

/-! ### Being passed (R143) -/

/-- The calls that a call on its way to the air passes. -/
theorem mem_passedBy (s : State) (c : Call) (k : Nat) : k ∈ s.passedBy c ↔
    ∃ d ∈ (scheduleOrder s.relay.calls).takeWhile (fun d => d.id != c.id), d.id = k ∧ d.state = .waiting
      ∧ d.fromPass ≤ s.boundaries ∧ ∃ z : Fin 16, d.zones.getLsbD z.val = true ∧ c.zones.getLsbD z.val = true := by
  unfold State.passedBy
  simp only [List.mem_map, List.mem_filter, Bool.and_eq_true, shared_zones, beq_iff_eq, State.takesPart, decide_eq_true_eq]
  constructor
  · rintro ⟨d, ⟨hd, ⟨h1, h2⟩, h3⟩, rfl⟩
    exact ⟨d, hd, rfl, h1, h2, h3⟩
  · rintro ⟨d, hd, rfl, h1, h2, h3⟩
    exact ⟨d, ⟨hd, ⟨h1, h2⟩, h3⟩, rfl⟩

/-- A change of one record that keeps its id and what it reserves leaves what the others reserve. -/
theorem reservedByOthers_onCall (s : State) (k j : Nat) (f : Call → Call) (hi : ∀ c : Call, (f c).id = c.id)
    (hr : ∀ c : Call, (f c).reserved = c.reserved) : (s.onCall k f).reservedByOthers j = s.reservedByOthers j := by
  show (s.relay.calls.map _).foldl _ _ = _
  unfold State.reservedByOthers
  rw [List.foldl_map]
  congr 1
  funext acc c
  by_cases h : c.id = k <;> simp [h, hi, hr]

/-- Two changes of the record of one call of a lawful queue are one change. -/
theorem onCall_onCall {s : State} (hn : (s.relay.calls.map Call.id).Nodup) {c : Call} (hc : c ∈ s.relay.calls)
    (f g h : Call → Call) (hf : ∀ x : Call, (f x).id = x.id) (hfg : g (f c) = h c) :
    (s.onCall c.id f).onCall c.id g = s.onCall c.id h := by
  refine congrArg (fun cs => s.onRelay fun r => { r with calls := cs }) ?_
  show (s.relay.calls.map _).map _ = s.relay.calls.map _
  rw [List.map_map]
  refine List.map_congr_left fun x hx => ?_
  by_cases hk : x.id = c.id
  · have hxc : x = c := call_of_id hn hx hc hk
    subst hxc
    simp [hf, hfg]
  · simp [hk]

/-- A call that counts its third pass reserves what no other has reserved. -/
theorem passCall_third {s : State} (hn : (s.relay.calls.map Call.id).Nodup) {c : Call} (hc : c ∈ s.relay.calls)
    (hp : c.passes = 2) : s.passCall c.id = s.onCall c.id fun d =>
      { d with passes := 3, reserved := c.zones &&& ~~~s.reservedByOthers c.id } := by
  have hcf := callOf_of_mem hn hc
  have h1 : c.passes < Config.passLimit := by rw [hp]; decide
  have h2 : c.passes + 1 = Config.passLimit := by rw [hp]; rfl
  unfold State.passCall
  rw [hcf]
  dsimp only
  rw [if_pos h1, if_pos h2]
  unfold State.reserveZones
  rw [reservedByOthers_onCall s _ _ (fun d => { d with passes := d.passes + 1 }) (fun _ => rfl) fun _ => rfl]
  refine onCall_onCall hn hc (fun d => { d with passes := d.passes + 1 }) _ _ (fun _ => rfl) ?_
  rw [if_pos h2]
  show ({ c with passes := c.passes + 1, reserved := _ } : Call) = _
  rw [hp]

theorem passCall_early {s : State} {c : Call} (hcf : s.callOf c.id = some c) (hp : c.passes < 2) :
    s.passCall c.id = s.onCall c.id fun d => { d with passes := d.passes + 1 } := by
  have h1 : c.passes < Config.passLimit := Nat.lt_of_lt_of_le hp (by decide)
  have h2 : ¬ c.passes + 1 = Config.passLimit := fun h => by
    have : c.passes + 1 = 3 := h
    omega
  unfold State.passCall
  rw [hcf]
  dsimp only
  rw [if_pos h1, if_neg h2]

theorem passCall_late {s : State} {c : Call} (hcf : s.callOf c.id = some c) (hp : 3 ≤ c.passes) : s.passCall c.id = s := by
  unfold State.passCall
  rw [hcf]
  exact if_neg (Nat.not_lt.mpr hp)

end Sys2Proof.Machine

/-! SUPPORT. A call that has gone on air stays so to the end of the scheduling step. -/

namespace Sys2Proof.Machine

open Sys2Proof

/-! ### Going on air (R142, R150) -/

/-- The acknowledgements of a call that goes on air: with ack REQUIRED each of its zones that is not ACKED is PENDING. -/
def Call.asked (c : Call) : Vector Ack 16 :=
  if c.ackRequired then table fun z => if c.zones.getLsbD z.val && c.acks[z] != .acked then Ack.pending else c.acks[z]
  else c.acks

theorem asked_at {c : Call} (h : c.ackRequired = true) (z : Fin 16) (hz : c.zones.getLsbD z.val = true) :
    c.asked[z] ≠ .notAsked := by
  unfold Call.asked
  rw [if_pos h, table_at, hz]
  cases ha : c.acks[z] <;> decide

/-- A record on air from a boundary on, with given acknowledgements. -/
def Call.onAirWith (c : Call) (acks : Vector Ack 16) (speaking : Bool) (voice : Option (Fin 8)) (now : Nat) : Call :=
  { c with state := .onAir speaking, voice := voice, onAirCount := 0, reserved := 0, acks := acks, since := now }

/-- The record of a call that goes on air at a boundary. -/
def Call.aired (c : Call) (speaking : Bool) (voice : Option (Fin 8)) (now : Nat) : Call := c.onAirWith c.asked speaking voice now

/-- Some zones are on air for a call. -/
def State.claimZones (s : State) (k : Nat) (zones : BitVec 16) : State :=
  s.onRelay fun r => { r with zones := table fun z => if zones.getLsbD z.val then { r.zones[z] with call := some k } else r.zones[z] }

theorem claimZones_call (s : State) (k : Nat) (zones : BitVec 16) (z : Fin 16) :
    (s.claimZones k zones).relay.zones[z].call = if zones.getLsbD z.val then some k else s.relay.zones[z].call := by
  have h : (s.claimZones k zones).relay.zones[z] = _ := table_at _ z
  rw [h]
  split <;> rfl

theorem claimZones_rest (s : State) (k : Nat) (zones : BitVec 16) :
    (s.claimZones k zones).relay.calls = s.relay.calls ∧ (s.claimZones k zones).outside = s.outside
      ∧ (s.claimZones k zones).msg = s.msg := ⟨rfl, rfl, rfl⟩

theorem goOnAir_eq {s : State} {k : Nat} {c : Call} (hc : s.callOf k = some c) (b : Bool) (v : Option (Fin 8)) :
    s.goOnAir k b v = (s.onCall k fun d => d.onAirWith c.asked b v s.boundaries).claimZones k c.zones := by
  unfold State.goOnAir
  rw [hc]
  rfl

/-- The record of the call that goes on air, and any other. -/
theorem goOnAir_callOf {s : State} {k : Nat} {c : Call} (hc : s.callOf k = some c) (b : Bool) (v : Option (Fin 8)) (j : Nat) :
    (s.goOnAir k b v).callOf j = if j = k then some (c.aired b v s.boundaries) else s.callOf j := by
  rw [goOnAir_eq hc, State.callOf, (claimZones_rest _ _ _).1]
  refine (onCall_callOf s k j (fun d => d.onAirWith c.asked b v s.boundaries) fun _ => rfl).trans ?_
  by_cases h : j = k
  · rw [if_pos h, if_pos h, h, hc]; rfl
  · rw [if_neg h, if_neg h]

/-- The zones of the call that goes on air are on air for it, and the others are as they were. -/
theorem goOnAir_zone {s : State} {k : Nat} {c : Call} (hc : s.callOf k = some c) (b : Bool) (v : Option (Fin 8)) (z : Fin 16) :
    (s.goOnAir k b v).relay.zones[z].call = if c.zones.getLsbD z.val then some k else s.relay.zones[z].call := by
  rw [goOnAir_eq hc, claimZones_call]
  rfl

theorem goOnAir_outside (s : State) (k : Nat) (b : Bool) (v : Option (Fin 8)) :
    (s.goOnAir k b v).outside = s.outside ∧ (s.goOnAir k b v).msg = s.msg := by
  cases hc : s.callOf k with
  | none =>
    have h : s.goOnAir k b v = s := by unfold State.goOnAir; rw [hc]
    rw [h]
    exact ⟨rfl, rfl⟩
  | some c =>
    rw [goOnAir_eq hc]
    exact (claimZones_rest _ _ _).2

/-- A change of one record keeps the ids of the queue. -/
theorem onCall_ids (s : State) (k : Nat) (f : Call → Call) (hf : ∀ c : Call, (f c).id = c.id) :
    (s.onCall k f).relay.calls.map Call.id = s.relay.calls.map Call.id := by
  show (s.relay.calls.map _).map Call.id = _
  rw [List.map_map]
  refine List.map_congr_left fun x _ => ?_
  show (if x.id = k then f x else x).id = x.id
  split
  · exact hf x
  · rfl

theorem goOnAir_ids (s : State) (k : Nat) (b : Bool) (v : Option (Fin 8)) :
    (s.goOnAir k b v).relay.calls.map Call.id = s.relay.calls.map Call.id := by
  cases hc : s.callOf k with
  | none =>
    have h : s.goOnAir k b v = s := by unfold State.goOnAir; rw [hc]
    rw [h]
  | some c =>
    rw [goOnAir_eq hc, (claimZones_rest _ _ _).1]
    exact onCall_ids s k _ fun _ => rfl

/-- A pass counted changes the record of one call. -/
theorem passCall_cases (s : State) (k : Nat) : s.passCall k = s ∨ ∃ f : Call → Call, (∀ c : Call, (f c).id = c.id) ∧
    (s.passCall k = s.onCall k f ∨ ∃ g : Call → Call, (∀ c : Call, (g c).id = c.id) ∧ s.passCall k = (s.onCall k f).onCall k g) := by
  unfold State.passCall
  split
  · exact .inl rfl
  · split
    · refine .inr ⟨fun d => { d with passes := d.passes + 1 }, fun _ => rfl, ?_⟩
      dsimp only
      split
      · exact .inr ⟨_, fun c => by split <;> rfl, rfl⟩
      · exact .inl rfl
    · exact .inl rfl

/-! ### A call on air through the rest of the step -/

/-- The call of an id is on air in a set of zones as it was at a state before. -/
structure State.StaysOnAir (s t : State) (k : Nat) (d : Call) (zones : BitVec 16) : Prop where
  ids : t.relay.calls.map Call.id = s.relay.calls.map Call.id
  record : t.callOf k = some d
  zone : ∀ z : Fin 16, zones.getLsbD z.val = true → t.relay.zones[z].call = some k
  outside : t.outside = s.outside
  msg : t.msg = s.msg

namespace State.StaysOnAir

variable {s t : State} {k : Nat} {d : Call} {zones : BitVec 16}

theorem onCall (h : s.StaysOnAir t k d zones) {j : Nat} (hj : j ≠ k) (f : Call → Call) (hf : ∀ c : Call, (f c).id = c.id) :
    s.StaysOnAir (t.onCall j f) k d zones where
  ids := (onCall_ids t j f hf).trans h.ids
  record := (onCall_callOf t j k f hf).trans ((if_neg fun e => hj e.symm).trans h.record)
  zone := h.zone
  outside := h.outside
  msg := h.msg

/-- Another call is passed. -/
theorem passCall (h : s.StaysOnAir t k d zones) {j : Nat} (hj : j ≠ k) : s.StaysOnAir (t.passCall j) k d zones := by
  rcases passCall_cases t j with e | ⟨f, hf, e | ⟨g, hg, e⟩⟩
  · rwa [e]
  · rw [e]; exact h.onCall hj f hf
  · rw [e]; exact (h.onCall hj f hf).onCall hj g hg

theorem passCalls {ks : List Nat} (hk : k ∉ ks) {t : State} (h : s.StaysOnAir t k d zones) :
    s.StaysOnAir (ks.foldl State.passCall t) k d zones := by
  induction ks generalizing t with
  | nil => exact h
  | cons j ks ih =>
    rw [List.mem_cons, not_or] at hk
    exact ih hk.2 (h.passCall fun e => hk.1 e.symm)

/-- A call on air is not passed. -/
theorem not_passed (h : s.StaysOnAir t k d zones) (hd : d.state ≠ .waiting) (hn : (s.relay.calls.map Call.id).Nodup) (c : Call) :
    k ∉ t.passedBy c := by
  intro hk
  obtain ⟨x, hx, rfl, hw, -⟩ := (mem_passedBy t c k).mp hk
  have hxm : x ∈ t.relay.calls := (mem_scheduleOrder _ _).mp (List.takeWhile_subset _ hx)
  have := (callOf_of_mem (h.ids.symm ▸ hn) hxm).symm.trans h.record
  exact hd (Option.some.inj this ▸ hw)

/-- Another call is considered: one that goes on air has only zones that are FREE. -/
theorem considerCall (h : s.StaysOnAir t k d zones) (hd : d.state ≠ .waiting) (hn : (s.relay.calls.map Call.id).Nodup) {j : Nat}
    (hj : j ≠ k) : s.StaysOnAir (t.considerCall j) k d zones := by
  cases hc : t.callOf j with
  | none =>
    have e : t.considerCall j = t := by unfold State.considerCall; rw [hc]
    rwa [e]
  | some c =>
    cases ha : t.admission c with
    | none => rwa [considerCall_not hc ha]
    | some v =>
      rw [considerCall_goes hc ha]
      have hopen : t.zonesOpen c = true := by
        by_contra hx
        rw [admission_shut (.inr (.inr (.inr (Bool.not_eq_true _ ▸ hx))))] at ha
        cases ha
      have hcid : c.id = j := (mem_of_callOf hc).2
      refine passCalls (h.not_passed hd hn c) ⟨?_, ?_, fun z hz => ?_, ?_, ?_⟩
      · exact (goOnAir_ids t j false v).trans h.ids
      · exact (goOnAir_callOf hc false v k).trans ((if_neg fun e => hj e.symm).trans h.record)
      · rw [goOnAir_zone hc, if_neg]
        · exact h.zone z hz
        · intro hcz
          have := ((zonesOpen_iff t c).mp hopen z hcz).1
          rw [h.zone z hz] at this
          cases this
      · exact (goOnAir_outside t j false v).1.trans h.outside
      · exact (goOnAir_outside t j false v).2.trans h.msg

theorem considerCalls {ks : List Nat} (hd : d.state ≠ .waiting) (hn : (s.relay.calls.map Call.id).Nodup) (hk : k ∉ ks) {t : State}
    (h : s.StaysOnAir t k d zones) : s.StaysOnAir (ks.foldl State.considerCall t) k d zones := by
  induction ks generalizing t with
  | nil => exact h
  | cons j ks ih =>
    rw [List.mem_cons, not_or] at hk
    exact ih hk.2 (h.considerCall hd hn fun e => hk.1 e.symm)

end State.StaysOnAir

/-- The calls before the first that may wait are passed over. -/
theorem considerCalls_none {s : State} (ds : List Call) (h : ∀ d ∈ ds, s.callOf d.id = some d ∧ (d.state ≠ .waiting ∨ d.priority = 3)) :
    (ds.map Call.id).foldl State.considerCall s = s := by
  induction ds with
  | nil => rfl
  | cons d ds ih =>
    obtain ⟨hd, hw⟩ := h d List.mem_cons_self
    rw [List.map_cons, List.foldl_cons, considerCall_not hd (admission_shut (hw.elim .inl fun p => .inr (.inl p)))]
    exact ih fun x hx => h x (List.mem_cons_of_mem _ hx)

/-- The step puts the first call that may go on air there, and it stays. -/
theorem relaySchedule_airs {s : State} (hl : s.callsLawful) {c : Call} (hc : c ∈ s.relay.calls) {v : Option (Fin 8)}
    (ha : s.admission c = some v)
    (hb : ∀ d ∈ (scheduleOrder s.relay.calls).takeWhile (fun d => d.id != c.id), d.state ≠ .waiting ∨ d.priority = 3) :
    s.StaysOnAir s.relaySchedule c.id (c.aired false v s.boundaries) c.zones := by
  have hcf := callOf_of_mem hl.1 hc
  obtain ⟨rest, ho, hrest⟩ := scheduleOrder_split hl.1 hc
  have hfold : s.relaySchedule = (rest.map Call.id).foldl State.considerCall (s.considerCall c.id) := by
    unfold State.relaySchedule
    rw [ho, List.map_append, List.foldl_append, considerCalls_none _ fun d hd => ⟨?_, hb d hd⟩]
    · rfl
    · exact callOf_of_mem hl.1 ((mem_scheduleOrder _ _).mp (List.takeWhile_subset _ hd))
  have hair : (c.aired false v s.boundaries).state ≠ .waiting := nofun
  have hgo : s.StaysOnAir (s.goOnAir c.id false v) c.id (c.aired false v s.boundaries) c.zones :=
    { ids := goOnAir_ids s c.id false v
      record := (goOnAir_callOf hcf false v c.id).trans (if_pos rfl)
      zone := fun z hz => (goOnAir_zone hcf false v z).trans (if_pos hz)
      outside := (goOnAir_outside s c.id false v).1
      msg := (goOnAir_outside s c.id false v).2 }
  have hnot : c.id ∉ s.passedBy c := by
    intro hk
    obtain ⟨x, hx, hxc, -⟩ := (mem_passedBy s c c.id).mp hk
    have := List.mem_takeWhile_imp hx
    rw [hxc, bne_self_eq_false] at this
    cases this
  rw [hfold, considerCall_goes hcf ha]
  refine State.StaysOnAir.considerCalls hair hl.1 (fun hk => ?_) (State.StaysOnAir.passCalls hnot hgo)
  obtain ⟨d, hd, e⟩ := List.mem_map.mp hk
  exact (hrest d hd).2 e

/-- Settles O44: the conditions and the passing of one call, and the call that goes on air through the rest of its step. -/
theorem callGoesOnAir : Obligations.CallGoesOnAir := by
  refine ⟨fun s => rfl, fun c s hl hc => ?_, fun k c s ha hl hc hid hst hp hs hz hv hb => ?_⟩
  · have hcf := callOf_of_mem hl.1 hc
    refine ⟨fun h => considerCall_not hcf (admission_shut h), fun k hk hv => considerCall_not hcf (admission_voiceless hk hv),
      fun h1 h2 h3 h4 => ?_, zonesOpen_iff s c, mem_passedBy s c, passCall_early hcf, fun h2 => ?_, passCall_late hcf⟩
    · obtain ⟨hi, hk⟩ := admission_open h1 h2 h3 h4
      exact ⟨fun i h => considerCall_goes hcf (hi i h),
        fun k v h hv => considerCall_goes hcf ((hk k h).trans (by rw [hv]; rfl))⟩
    · refine ⟨_, passCall_third hl.1 hc h2, fun z => ?_⟩
      rw [← reservedByOthers_clear]
      simp [z.isLt]
  · obtain ⟨hi, hk⟩ := admission_open hst hp hs hz
    obtain ⟨v, hadm⟩ : ∃ v, s.admission c = some v := by
      rcases hv with ⟨i, h⟩ | ⟨v, h⟩
      · exact ⟨none, hi i h⟩
      · cases hcs : c.source with
        | input i => exact ⟨none, hi i hcs⟩
        | clip j => exact ⟨some v, (hk j hcs).trans (by rw [h]; rfl)⟩
    have hair : (s.without .relaySchedule).StaysOnAir (s.without .relaySchedule).relaySchedule c.id
      (c.aired false v s.boundaries) c.zones := relaySchedule_airs (s := s.without .relaySchedule) hl hc hadm hb
    have hrun : s.runDue .relaySchedule = (s.without .relaySchedule).relaySchedule := runDue_atItem ha
    obtain ⟨hm, hmi⟩ := mem_of_callOf hair.record
    refine ⟨_, (stepIn_next ha ?_).trans (congrArg _ hrun), ⟨_, hm, hmi, rfl, rfl, rfl, fun hr z hz' => asked_at hr z hz'⟩,
      hair.zone, ?_⟩
    · rw [hrun, ← hid, callOf_of_mem hl.1 hc, hair.record]
      simp [hst, Call.aired, Call.onAirWith, Call.isOnAir]
    · obtain ⟨h1, h2, h3, h4, h5⟩ := outside_iff.mp hair.outside
      exact ⟨h1, h2, h3, h4, hair.msg, h5⟩

end Sys2Proof.Machine

/-! SUPPORT. The ducks of the zones, and the change to SPEAKING. -/

namespace Sys2Proof.Machine

open Sys2Proof

/-! ### The zone ducks (R133) -/

/-- Step 8 moves the ducks and nothing else. -/
theorem relayDucks_eq (s : State) :
    s.relayDucks = { s with relay := { s.relay with zones := table fun z => s.relay.zones[z].moveDuck } } := rfl

theorem relayDucks_zone (s : State) (z : Fin 16) : s.relayDucks.relay.zones[z] = s.relay.zones[z].moveDuck :=
  table_at (fun z : Fin 16 => s.relay.zones[z].moveDuck) z

/-- What a pass keeps of the zones as they were when it opened (R133). -/
theorem openPass_zone (s : State) (z : Fin 16) : s.openPass.relay.zones[z] = { s.relay.zones[z] with
    wasOnAir := s.relay.zones[z].call.isSome
    wasStop := ((s.relay.zones[z].call.bind s.callOf).map fun c => c.priority == 3).getD false
    tail := none } := by
  unfold State.openPass
  exact table_at (fun z : Fin 16 => ({ s.relay.zones[z] with
    wasOnAir := s.relay.zones[z].call.isSome
    wasStop := ((s.relay.zones[z].call.bind s.callOf).map fun c => c.priority == 3).getD false
    tail := none } : Zone)) z

theorem openFrame_relay (s : State) (env : Env) (clocks : Clocking) (items : List Item) :
    (s.openFrame env clocks items).relay = s.clearLossCuts.openPass.relay := by
  unfold State.openFrame
  rfl

theorem clearLossCuts_relay (s : State) : s.clearLossCuts.relay = s.relay := by
  unfold State.clearLossCuts
  exact State.onInputs_relay ..

/-! ### The change to SPEAKING (R145) -/

theorem atDepth_iff (s : State) (c : Call) : s.atDepth c = true ↔ ∀ z : Fin 16, c.zones.getLsbD z.val = true →
    s.relay.zones[z].duckEnd = lin s.relay.zones[z].entry.duckDepth := by
  simp [State.atDepth, mem_zonesOf]

/-- A live call at depth. -/
theorem speakCall_live {s : State} {k : Nat} {c : Call} {i : Fin 64} (hc : s.callOf k = some c)
    (h : c.state = .onAir false ∧ c.since < s.boundaries ∧ s.atDepth c = true) (hi : c.source = .input i) :
    s.speakCall k = s.onCall k fun d => { d with state := .onAir true } := by
  unfold State.speakCall
  rw [hc]
  dsimp only
  rw [if_pos h, hi]

/-- A clip call at depth with a voice to speak with. -/
theorem speakCall_clip {s : State} {k j : Nat} {c : Call} {v : Fin 8} (hc : s.callOf k = some c)
    (h : c.state = .onAir false ∧ c.since < s.boundaries ∧ s.atDepth c = true) (hj : c.source = .clip j)
    (hv : s.speakingVoice c = some v) :
    s.speakCall k = (s.onCall k fun d => { d with state := .onAir true, voice := some v }).callStart v j k := by
  unfold State.speakCall
  rw [hc]
  dsimp only
  rw [if_pos h, hj]
  dsimp only
  rw [hv]

/-- A clip call at depth with no voice left. -/
theorem speakCall_voiceless {s : State} {k j : Nat} {c : Call} (hc : s.callOf k = some c)
    (h : c.state = .onAir false ∧ c.since < s.boundaries ∧ s.atDepth c = true) (hj : c.source = .clip j)
    (hv : s.speakingVoice c = none) :
    s.speakCall k = ((s.freeZones k).backToWaiting k).post (callCutPost k 0) := by
  unfold State.speakCall
  rw [hc]
  dsimp only
  rw [if_pos h, hj]
  dsimp only
  rw [hv]

theorem speakingVoice_own {s : State} {c : Call} {v : Fin 8} (hv : c.voice = some v) (hf : s.voiceFree c.id v = true) :
    s.speakingVoice c = some v := by
  unfold State.speakingVoice
  rw [hv]
  exact if_pos hf

theorem speakingVoice_none {s : State} {c : Call} (h : ∀ v, s.voiceFree c.id v = false) : s.speakingVoice c = none := by
  have hf : s.freeCallVoice c.id = none := by simp [State.freeCallVoice, List.find?_eq_none, h]
  unfold State.speakingVoice
  rw [hf]
  cases c.voice with
  | none => rfl
  | some v => exact if_neg (by simp [h v])

/-- A call start touches the one voice. -/
theorem callStart_voice (s : State) (v : Fin 8) (j k : Nat) :
    (s.callStart v j k).clip.voices[v].state = .playing ∧ (s.callStart v j k).clip.voices[v].position = 0
      ∧ (s.callStart v j k).clip.voices[v].gain = 900
      ∧ (s.callStart v j k).clip.voices[v].playback = some { clip := j, loop := false, owner := .call k, serial := 0 } := by
  have h : (s.callStart v j k).clip.voices[v] = _ := startVoice_voice s v _ _
  rw [h]
  exact ⟨rfl, rfl, rfl, rfl⟩

/-- A call that a cut returns to WAITING: its zones are FREE, and it has no voice. -/
theorem freed_backToWaiting {s : State} {k : Nat} {c : Call} (hc : s.callOf k = some c) :
    s.Turns ((s.freeZones k).backToWaiting k) [k] 0
      ∧ (∀ z : Fin 16, ((s.freeZones k).backToWaiting k).relay.zones[z].call ≠ some k)
      ∧ ∃ r, ((s.freeZones k).backToWaiting k).callOf k = some { c with
          state := .waiting, voice := none, waitCount := 0, acks := Vector.replicate 16 .notAsked, since := s.boundaries
          reserved := r } := by
  have h1 := turns_freeZones s k
  have h2 := backToWaiting_turns (s.freeZones k) k
  obtain ⟨r, hr⟩ := backToWaiting_callOf (s := s.freeZones k) (freeZones_callOf s k k ▸ hc)
  refine ⟨turns_same h1 h2, fun z hz => freeZones_gone s k z (h2.freed z k hz), r, ?_⟩
  rw [hr, h1.boundaries]

/-- Settles O45: the ducks zone by zone, and the three ways of a call at depth. -/
theorem callSpeaks : Obligations.CallSpeaks := by
  refine ⟨fun s => ⟨fun z => ?_, rfl⟩, fun s env clocks items z => ?_, fun k c s ha hc hst hs hd => ?_⟩
  · exact relayDucks_zone s z
  · have hco : ∀ j, s.clearLossCuts.callOf j = s.callOf j := fun j => by
      unfold State.callOf
      rw [clearLossCuts_relay]
    rw [openFrame_relay, openPass_zone, clearLossCuts_relay, funext hco]
    refine ⟨rfl, ?_⟩
    dsimp only
    cases hz : s.relay.zones[z].call with
    | none => simp
    | some j =>
      cases hj : s.callOf j with
      | none => simp [hj]
      | some d => simp [hj]
  · have hat := (atDepth_iff s c).mpr hd
    have hall : c.state = .onAir false ∧ c.since < s.boundaries ∧ s.atDepth c = true := ⟨hst, hs, hat⟩
    have hid := (mem_of_callOf hc).2
    have hx : exec (.callSpeaking k) s = .next (s.speakCall k.toNat) := by
      refine stepIn_next ha ?_
      rw [hc]
      simp [hst, hs, hat]
    rw [hx]
    refine ⟨fun i hi => congrArg _ (speakCall_live hc hall hi), fun j v hj hv hf => ?_, fun j hj hf => ?_⟩
    · rw [speakCall_clip hc hall hj (speakingVoice_own hv hf)]
      obtain ⟨h1, h2, h3, h4⟩ := callStart_voice (s.onCall k.toNat fun d => { d with state := .onAir true, voice := some v }) v j k.toNat
      refine ⟨_, rfl, rfl, h1, h2, h3, h4, fun u hu => ?_, rfl, rfl, rfl, rfl⟩
      exact startVoice_other (s.onCall k.toNat fun d => { d with state := .onAir true, voice := some v }) v u _ _ hu
    · rw [speakCall_voiceless hc hall hj (speakingVoice_none hf)]
      obtain ⟨ht, hz, r, hr⟩ := freed_backToWaiting hc
      obtain ⟨hm, hmi⟩ := mem_of_callOf hr
      have hp := reported_before ht.grows (congrArg Link.counter ht.link) (post_reported _ (callCutPost k.toNat 0))
      refine ⟨_, rfl, fun z => hid.symm ▸ hz z, ⟨_, hm, rfl, rfl, rfl, rfl⟩, hid.symm ▸ hp, outside_iff.mp ht.outside⟩

end Sys2Proof.Machine

/-! SUPPORT. The acknowledge presses and the lamps. -/

namespace Sys2Proof.Machine

open Sys2Proof

/-! ### Which call a press answers (R147) -/

/-- The call is ON_AIR in the zone with its acknowledgement there PENDING. -/
def State.airsPending (s : State) (z : Fin 16) (c : Call) : Bool :=
  c.isOnAir && s.relay.zones[z].call == some c.id && c.acks[z] == .pending

/-- The call awaits an acknowledgement in the zone. -/
def Call.awaitsIn (z : Fin 16) (c : Call) : Bool := c.state == .awaitAck && c.acks[z] == .pending && c.zones.getLsbD z.val

theorem airsPending_iff (s : State) (z : Fin 16) (c : Call) : s.airsPending z c = true ↔
    c.isOnAir = true ∧ s.relay.zones[z].call = some c.id ∧ c.acks[z] = .pending := by
  simp [State.airsPending, and_assoc]

theorem awaitsIn_iff (z : Fin 16) (c : Call) : c.awaitsIn z = true ↔
    c.state = .awaitAck ∧ c.zones.getLsbD z.val = true ∧ c.acks[z] = .pending := by
  simp [Call.awaitsIn]
  tauto

theorem answeredCall_eq (s : State) (z : Fin 16) :
    s.answeredCall z = (s.relay.calls.find? (s.airsPending z)).or (s.relay.calls.find? (Call.awaitsIn z)) := by
  unfold State.answeredCall
  cases h : s.relay.calls.find? (s.airsPending z) with
  | none =>
    have h' : (s.relay.calls.find? fun c => c.isOnAir && s.relay.zones[z].call == some c.id && c.acks[z] == .pending) = none := h
    rw [h']
    rfl
  | some c =>
    have h' : (s.relay.calls.find? fun c => c.isOnAir && s.relay.zones[z].call == some c.id && c.acks[z] == .pending) = some c := h
    rw [h']
    rfl

/-- At most one call is ON_AIR in a zone. -/
theorem answeredCall_onAir {s : State} {z : Fin 16} (hn : (s.relay.calls.map Call.id).Nodup) {c : Call} (hc : c ∈ s.relay.calls)
    (ha : s.airsPending z c = true) : s.answeredCall z = some c := by
  rw [answeredCall_eq]
  cases hf : s.relay.calls.find? (s.airsPending z) with
  | none => rw [List.find?_eq_none] at hf; exact absurd ha (hf c hc)
  | some d =>
    have hd := (airsPending_iff s z d).mp (List.find?_some hf)
    have hcz := (airsPending_iff s z c).mp ha
    have hid : d.id = c.id := Option.some.inj (hd.2.1.symm.trans hcz.2.1)
    rw [call_of_id hn (List.mem_of_find?_eq_some hf) hc hid]
    rfl

theorem answeredCall_awaiting {s : State} {z : Fin 16} (hn : ∀ d ∈ s.relay.calls, s.airsPending z d = false) :
    s.answeredCall z = s.relay.calls.find? (Call.awaitsIn z) := by
  rw [answeredCall_eq, List.find?_eq_none.mpr fun d hd => by simp [hn d hd]]
  rfl

/-! ### A press that is taken -/

/-- In a lawful queue a record is changed by giving the new one. -/
theorem onCall_record {s : State} (hn : (s.relay.calls.map Call.id).Nodup) {c : Call} (hc : c ∈ s.relay.calls) (f : Call → Call) :
    (s.onCall c.id fun _ => f c) = s.onCall c.id f := by
  refine congrArg (fun cs => s.onRelay fun r => { r with calls := cs }) (List.map_congr_left fun x hx => ?_)
  by_cases h : x.id = c.id
  · rw [if_pos h, if_pos h, call_of_id hn hx hc h]
  · rw [if_neg h, if_neg h]

/-- The record of a call with its acknowledgement in a zone given. -/
def Call.ackIn (z : Fin 16) (c : Call) : Call := { c with acks := put c.acks z .acked }

theorem allAcked_iff (z : Fin 16) (c : Call) : (c.ackIn z).allAcked = true ↔
    ∀ y : Fin 16, y ≠ z → c.zones.getLsbD y.val = true → c.acks[y] = .acked := by
  have at_z : (c.ackIn z).acks[z] = .acked := put_same c.acks z Ack.acked
  have other : ∀ y : Fin 16, y ≠ z → (c.ackIn z).acks[y] = c.acks[y] := fun y hy => put_other c.acks z y Ack.acked (Ne.symm hy)
  unfold Call.allAcked
  rw [List.all_eq_true]
  constructor
  · intro h y hy hz
    have := h y ((mem_zonesOf _ y).mpr hz)
    rw [other y hy] at this
    exact beq_iff_eq.mp this
  · intro h y hy
    rw [beq_iff_eq]
    by_cases hyz : y = z
    · rw [hyz, at_z]
    · rw [other y hyz]
      exact h y hyz ((mem_zonesOf _ y).mp hy)

/-- A press that answers a call which goes on. -/
theorem takePress_acked {s : State} {z : Fin 16} {c : Call} (hn : (s.relay.calls.map Call.id).Nodup) (hc : c ∈ s.relay.calls)
    (ha : s.answeredCall z = some c) (h : c.state ≠ .awaitAck ∨ (c.ackIn z).allAcked = false) :
    s.takePress z = s.onCall c.id fun d => { d with acks := put d.acks z .acked } := by
  unfold State.takePress
  rw [ha]
  dsimp only
  rw [if_neg]
  · exact onCall_record hn hc fun d => { d with acks := put d.acks z .acked }
  · rintro ⟨h1, h2⟩
    rcases h with h | h
    · exact h h1
    · exact Bool.false_ne_true (h.symm.trans h2)

/-- A press that answers the last acknowledgement a call awaits. -/
theorem takePress_done {s : State} {z : Fin 16} {c : Call} (ha : s.answeredCall z = some c) (h1 : c.state = .awaitAck)
    (h2 : (c.ackIn z).allAcked = true) :
    s.takePress z = (s.onCall c.id fun _ => c.ackIn z).endCall (c.ackIn z) .done := by
  unfold State.takePress
  rw [ha]
  exact if_pos ⟨h1, h2⟩

theorem takePress_none {s : State} {z : Fin 16} (ha : s.answeredCall z = none) : s.takePress z = s := by
  unfold State.takePress
  rw [ha]

/-- A call that ends leaves the others of a lawful queue in their order, whatever its record was made. -/
theorem filter_changed {l before after : List Call} (hn : (l.map Call.id).Nodup) {c d : Call} (hl : l = before ++ c :: after)
    (hd : d.id = c.id) :
    (l.map fun x => if x.id = c.id then d else x).filter (fun x => x.id != d.id) = before ++ after := by
  subst hl
  rw [List.map_append, List.map_cons, List.nodup_append] at hn
  have hb : ∀ x ∈ before, x.id ≠ c.id := fun x hx => hn.2.2 _ (List.mem_map_of_mem hx) _ List.mem_cons_self
  have ha : ∀ x ∈ after, x.id ≠ c.id := fun x hx h => (List.nodup_cons.mp hn.2.1).1 (h ▸ List.mem_map_of_mem hx)
  have keep : ∀ m : List Call, (∀ x ∈ m, x.id ≠ c.id) →
      (m.map fun x => if x.id = c.id then d else x).filter (fun x => x.id != d.id) = m := by
    intro m hm
    rw [List.map_congr_left fun x hx => if_neg (hm x hx), List.map_id', hd]
    exact List.filter_eq_self.mpr fun x hx => by simpa using hm x hx
  rw [List.map_append, List.map_cons, List.filter_append, if_pos rfl, List.filter_cons, if_neg (by simp), keep before hb, keep after ha]

theorem endCall_changed {s : State} {before after : List Call} (hn : (s.relay.calls.map Call.id).Nodup) {c d : Call}
    (hl : s.relay.calls = before ++ c :: after) (hd : d.id = c.id) (e : CallEnd) :
    (s.onCall c.id fun _ => d).endCall d e
      = (s.onRelay fun r => { r with calls := before ++ after }).post (callEndedPost c.id e d.unanswered) := by
  have hf := filter_changed (d := d) hn hl hd
  rw [← hd]
  refine congrArg (fun cs => (s.onRelay fun r => { r with calls := cs }).post (callEndedPost d.id e d.unanswered)) ?_
  rw [← hf, ← hd]
  rfl

/-! ### The lamps (R148) -/

theorem relayLamps_zone (s : State) (z : Fin 16) : s.relayLamps.relay.zones[z] = { s.relay.zones[z] with
    lamp := s.relay.calls.any fun c => c.zones.getLsbD z.val && c.acks[z] == .pending } :=
  table_at (fun z : Fin 16 => ({ s.relay.zones[z] with
    lamp := s.relay.calls.any fun c => c.zones.getLsbD z.val && c.acks[z] == .pending } : Zone)) z

theorem relayLamps_calls (s : State) : s.relayLamps.relay.calls = s.relay.calls ∧ s.relayLamps.relay.stopOnAir = s.stopIsOnAir :=
  ⟨rfl, rfl⟩

/-- Settles O46: the latch and the press of one line, and the call it answers. -/
theorem pressTakenOnce : Obligations.PressTakenOnce := by
  refine ⟨fun straps z => ?_, fun s => rfl, fun s z => ?_, fun z s hl => ?_, fun z s => ⟨fun ht hz => ?_, fun ht hz => ?_, fun ht => ?_⟩⟩
  · show (Vector.replicate 16 Zone.cold)[z].latch = false
    simp [Zone.cold]
  · obtain ⟨h1, h2⟩ := relayLamps_calls s
    exact ⟨_, relayLamps_zone s z, by simp, h1, h2⟩
  · intro onAir awaits acked
    have noAir : ∀ d, ¬ onAir d → s.airsPending z d = false := fun d h =>
      Bool.eq_false_iff.mpr fun ht => h ((airsPending_iff s z d).mp ht)
    have noWait : ∀ d, ¬ awaits d → d.awaitsIn z = false := fun d h =>
      Bool.eq_false_iff.mpr fun ht => h ((awaitsIn_iff z d).mp ht)
    refine ⟨fun c hc ha => ?_, fun c before after hcs ha hw hb => ?_, fun h => ?_⟩
    · refine takePress_acked hl.1 hc (answeredCall_onAir hl.1 hc ((airsPending_iff s z c).mpr ha)) (.inl fun h => ?_)
      have := ha.1
      rw [Call.isOnAir, h] at this
      cases this
    · have hc : c ∈ s.relay.calls := hcs ▸ List.mem_append_right _ List.mem_cons_self
      have hans : s.answeredCall z = some c := by
        rw [answeredCall_awaiting fun d hd => noAir d (ha d hd), hcs, List.find?_append,
          List.find?_eq_none.mpr fun d hd => by simp [noWait d (hb d hd)], List.find?_cons, (awaitsIn_iff z c).mpr hw]
        rfl
      refine ⟨fun ⟨y, hy, hyz, hya⟩ => takePress_acked hl.1 hc hans (.inr ?_), fun hall => ?_⟩
      · exact Bool.eq_false_iff.mpr fun ht => hya ((allAcked_iff z c).mp ht y hy hyz)
      · rw [takePress_done hans hw.1 ((allAcked_iff z c).mpr hall), endCall_changed (d := c.ackIn z) hl.1 hcs rfl .done]
        rfl
    · refine takePress_none ?_
      rw [answeredCall_awaiting fun d hd => noAir d (h d hd).1]
      exact List.find?_eq_none.mpr fun d hd => by simp [noWait d (h d hd).2]
  · unfold State.readAckLine Line.asserted
    rw [ht, if_pos (by decide), hz]
    exact if_neg Bool.false_ne_true
  · unfold State.readAckLine Line.asserted
    rw [ht, if_pos (by decide), if_pos hz]
  · unfold State.readAckLine Line.asserted
    rw [if_neg (by simpa using ht)]

end Sys2Proof.Machine

/-! SUPPORT. What a post leaves, at once and when it comes late. -/

namespace Sys2Proof.Machine

open Sys2Proof

/-! ### A post that reaches the message controller (R184) -/

theorem value_range (k : EventKind) : k.value ≠ 0 ∧ k.value < 64 := by cases k <;> decide

theorem conditionBit_at (k : EventKind) (j : Nat) : (conditionBit k).getLsbD j = decide (k.value = j) := by
  have h := (value_range k).2
  simp [conditionBit, BitVec.getLsbD_twoPow, h]

theorem overflowBit_at (j : Nat) : overflowBit.getLsbD j = decide (0 = j) := by
  simp [overflowBit, BitVec.getLsbD_twoPow]

/-- The queue is full for a record that is reported. -/
def Msg.overflows (m : Msg) (k : EventKind) : Bool := m.reports k && decide (32 ≤ m.events.length)

/-- A post changes the conditions and the event queue, and nothing else. -/
theorem msg_post_eq (m : Msg) (n : U32) (p : Post) : m.post n p = { m with
    conditions := (m.conditions ||| conditionBit p.kind) ||| (if m.overflows p.kind then overflowBit else 0)
    events := if m.reports p.kind = true ∧ m.events.length < 32 then m.events ++ [{ stamp := n, post := p }] else m.events } := by
  unfold Msg.post Msg.overflows
  by_cases hr : m.reports p.kind = true
  · by_cases hl : m.events.length < 32
    · have hl' : ¬ 32 ≤ m.events.length := by omega
      have hm : m.events.length < Config.maxEvents := hl
      simp [hr, hl, hm, hl']
    · have hl' : 32 ≤ m.events.length := by omega
      have hm : ¬ m.events.length < Config.maxEvents := hl
      simp [hr, hl, hm, hl']
  · simp [hr]

/-! ### Posts that come late -/

theorem holdsBack_iff (m : Msg) (k : EventKind) : m.holdsBack k = true ↔ ∃ b ∈ m.late, k.poster = some b := by
  unfold Msg.holdsBack
  cases k.poster with
  | none => simp
  | some b => simp [eq_comm]

/-- Which blocks' posts come late is nothing to a post that reaches the message controller. -/
theorem msg_post_late (m : Msg) (l : List Poster) (n : U32) (p : Post) :
    Msg.post { m with late := l } n p = { m.post n p with late := l } := by
  rw [msg_post_eq, msg_post_eq]
  rfl

theorem msg_post_coming (m : Msg) (n : U32) (p : Post) : (m.post n p).coming = m.coming := by rw [msg_post_eq]

/-- What the posts that are on their way leave when no turn is left. -/
def Msg.arriveRest (m : Msg) : Msg := m.coming.foldl (fun m e => m.post e.stamp e.post) { m with late := [], coming := [] }

theorem arrive_eq (m : Msg) : m.arrive = (m.late.foldl Msg.deliver m).arriveRest := rfl

theorem deliver_some {m : Msg} {b : Poster} {e : EventRecord}
    (h : m.coming.find? (fun e => e.post.kind.poster == some b) = some e) :
    m.deliver b = Msg.post { m with coming := m.coming.erase e } e.stamp e.post := by
  unfold Msg.deliver
  rw [h]

theorem deliver_none {m : Msg} {b : Poster} (h : m.coming.find? (fun e => e.post.kind.poster == some b) = none) :
    m.deliver b = m := by
  unfold Msg.deliver
  rw [h]

theorem deliver_lateSet (m : Msg) (l : List Poster) (b : Poster) :
    Msg.deliver { m with late := l } b = { m.deliver b with late := l } := by
  cases h : m.coming.find? (fun e => e.post.kind.poster == some b) with
  | none => rw [deliver_none h, deliver_none (m := { m with late := l }) h]
  | some e =>
    rw [deliver_some h, deliver_some (m := { m with late := l }) h]
    exact msg_post_late { m with coming := m.coming.erase e } l e.stamp e.post

/-- The turns that are left do not depend on those that were named. -/
theorem delivers_lateSet (turns : List Poster) (m : Msg) (l : List Poster) :
    (turns.foldl Msg.deliver { m with late := l }).arriveRest = (turns.foldl Msg.deliver m).arriveRest := by
  induction turns generalizing m with
  | nil => rfl
  | cons b turns ih => rw [List.foldl_cons, List.foldl_cons, deliver_lateSet, ih]

/-- The first turn of those named, then the rest. -/
theorem arrive_turn {m : Msg} {b : Poster} {turns : List Poster} (h : m.late = b :: turns) :
    m.arrive = Msg.arrive { m.deliver b with late := turns } := by
  rw [arrive_eq, arrive_eq, h, List.foldl_cons]
  exact (delivers_lateSet turns (m.deliver b) turns).symm

/-- The post of a turn is the oldest of its block. -/
theorem deliver_oldest {m : Msg} {b : Poster} {e : EventRecord} {before after : List EventRecord}
    (h : m.coming = before ++ e :: after) (he : e.post.kind.poster = some b) (hb : ∀ d ∈ before, d.post.kind.poster ≠ some b) :
    m.deliver b = Msg.post { m with coming := before ++ after } e.stamp e.post := by
  have hf : m.coming.find? (fun e => e.post.kind.poster == some b) = some e := by
    rw [h, List.find?_append, List.find?_eq_none.mpr fun d hd => by simpa using hb d hd, List.find?_cons]
    simp [he]
  have hx : m.coming.erase e = before ++ after := by
    rw [h, List.erase_append_right _ fun hd => hb e hd he, List.erase_cons_head]
  rw [deliver_some hf, hx]

/-- Settles O49: the post, and the turns of those that come late. -/
theorem postsAreKept : Obligations.PostsAreKept := by
  refine ⟨fun s p => ⟨fun h => ?_, fun h => ?_⟩, fun k => ?_, fun s => ⟨?_, fun h => ?_, fun b turns e before after hl hc he hb => ?_,
    fun b turns hl hn => ?_⟩, fun m n p => ?_⟩
  · refine post_direct (Bool.eq_false_iff.mpr fun hx => ?_)
    obtain ⟨b, hb, hk⟩ := (holdsBack_iff _ _).mp hx
    exact h b hb hk
  · exact post_late ((holdsBack_iff _ _).mpr h)
  · cases k <;> simp [EventKind.poster]
  · rfl
  · show s.onMsg Msg.arrive = _
    unfold State.onMsg
    rw [arrive_eq, h]
    show ({ s with msg := Msg.arriveRest s.msg } : State) = _
    unfold Msg.arriveRest
    rw [← h]
  · show ({ s with msg := s.msg.arrive } : State) = { s with msg := Msg.arrive (Msg.post _ _ _) }
    rw [arrive_turn hl, deliver_oldest hc he hb]
    exact congrArg (fun m => ({ s with msg := Msg.arrive m } : State))
      (msg_post_late { s.msg with coming := before ++ after } turns e.stamp e.post).symm
  · show ({ s with msg := s.msg.arrive } : State) = { s with msg := Msg.arrive { s.msg with late := turns } }
    rw [arrive_turn hl, deliver_none (List.find?_eq_none.mpr fun e he => by simpa using hn e he)]
  · intro reported
    have hv := value_range p.kind
    rw [msg_post_eq]
    refine ⟨?_, fun j h0 hj => ?_, ?_, rfl, rfl⟩
    · simp [conditionBit_at]
    · have hj' : p.kind.value ≠ j := Ne.symm hj
      have h0' : (0 : Nat) ≠ j := Ne.symm h0
      dsimp only
      split <;> simp [conditionBit_at, overflowBit_at, hj', h0']
    · show ((m.conditions ||| conditionBit p.kind) ||| _).getLsbD 0 = (m.conditions.getLsbD 0 || m.overflows p.kind)
      have h0 : (conditionBit p.kind).getLsbD 0 = false := (conditionBit_at p.kind 0).trans (decide_eq_false hv.1)
      rw [BitVec.getLsbD_or, BitVec.getLsbD_or, h0, Bool.or_false]
      cases m.overflows p.kind with
      | false => rfl
      | true => exact congrArg _ ((overflowBit_at 0).trans (decide_eq_true rfl))

end Sys2Proof.Machine

/-! SUPPORT. EVENT FETCH, FLAGS CLEAR and STATUS READ. -/

namespace Sys2Proof.Machine

open Sys2Proof

/-! ### EVENT FETCH and FLAGS CLEAR (R185) -/

/-- The clip flags of the inputs after a FLAGS CLEAR. -/
def clearedInputs (flags : U64) (v : Vector InputRecord 64) : Vector InputRecord 64 :=
  table fun i => if flags.getLsbD EventKind.inputClip.value then { v[i] with clip := false } else v[i]

/-- The clip and limiting flags of the buses after a FLAGS CLEAR. -/
def clearedBuses (flags : U64) (v : Vector BusRecord 32) : Vector BusRecord 32 :=
  table fun b => { v[b] with
    clip := v[b].clip && !flags.getLsbD EventKind.busClip.value
    limiting := v[b].limiting && !flags.getLsbD EventKind.limiting.value }

theorem clearedInputs_at (flags : U64) (v : Vector InputRecord 64) (i : Fin 64) :
    (clearedInputs flags v)[i] = { v[i] with clip := v[i].clip && !flags.getLsbD 5 } := by
  refine (table_at _ i).trans ?_
  show (if flags.getLsbD 5 = true then _ else _) = _
  cases flags.getLsbD 5 <;> simp

theorem clearedBuses_at (flags : U64) (v : Vector BusRecord 32) (b : Fin 32) : (clearedBuses flags v)[b] = { v[b] with
    clip := v[b].clip && !flags.getLsbD 6, limiting := v[b].limiting && !flags.getLsbD 7 } :=
  table_at _ b

/-- The node after a FLAGS CLEAR. -/
def State.flagsCleared (s : State) (flags : U64) : State :=
  { s with
    inputs := clearedInputs flags s.inputs
    mix := { s.mix with buses := clearedBuses flags s.mix.buses }
    msg := { s.msg with conditions := s.msg.conditions &&& ~~~flags } }

theorem clearFlags_eq (flags : U64) (s : State) :
    clearFlags flags s = ({ code := .ok, data := bytes8 s.msg.conditions.toNat }, s.flagsCleared flags) := by
  unfold clearFlags State.flagsCleared clearedInputs clearedBuses
  rfl

theorem flagsCleared_placed (s : State) (flags : U64) (o : Origin) :
    (s.onMsg fun m => m.placed o).flagsCleared flags = (s.flagsCleared flags).onMsg fun m => m.placed o := by
  cases o <;> rfl

/-- Settles O50, by the two handlers. -/
theorem eventsFetchedFlagsCleared : Obligations.EventsFetchedFlagsCleared := by
  intro s hb
  refine ⟨fun tag max hh => ?_, fun o flags hh => ⟨s.flagsCleared flags, ?_, rfl, clearedInputs_at flags s.inputs,
    clearedBuses_at flags s.mix.buses⟩⟩
  · exact now_replied (s.onMsg fun m => { m with events := m.events.drop (min 10 max.toNat) }) hb hh rfl rfl rfl rfl rfl
  · refine now_replied (s.flagsCleared flags) hb hh (not_dropped o rfl) rfl ?_ rfl rfl
    show clearFlags flags _ = _
    rw [clearFlags_eq, flagsCleared_placed]
    cases o <;> rfl

/-! ### STATUS READ (R171, R186) -/

/-- Fields that fit are all there. -/
theorem leading_fields (bss : List (List U8)) (n : Nat) (h : bss.flatten.length ≤ n) :
    leading n (bss.map Piece.field) = bss.flatten := by
  induction bss generalizing n with
  | nil => rfl
  | cons bs bss ih =>
    rw [List.flatten_cons, List.length_append] at h
    rw [List.map_cons, leading, if_pos (by omega), ih _ (by omega), List.flatten_cons]

theorem portByte_length (p : Option Port) : (portByte p).length = 1 := by
  rcases p with _ | _ | _ <;> rfl

/-- The link part is the nine values of R171 (R171). -/
theorem linkStatus_whole (s : State) : leading replyRoom (linkStatus s) =
    byte s.link.state.ctorIdx ++ byte (if s.link.linkTimed then 0 else 1) ++ portByte s.link.upstream
      ++ bytes4 s.link.counter.toNat ++ bytes2 s.link.reacquire ++ bytes2 s.link.damaged ++ bytes2 s.link.hopDrop
      ++ bytes2 s.link.reverse ++ bytes2 s.link.loss := by
  have ht : byte (!s.link.linkTimed).toNat = byte (if s.link.linkTimed then 0 else 1) := by cases s.link.linkTimed <;> rfl
  refine (leading_fields [byte s.link.state.ctorIdx, byte (!s.link.linkTimed).toNat, portByte s.link.upstream,
    bytes4 s.link.counter.toNat, bytes2 s.link.reacquire, bytes2 s.link.damaged, bytes2 s.link.hopDrop, bytes2 s.link.reverse,
    bytes2 s.link.loss] replyRoom ?_).trans ?_
  · simp only [List.flatten_cons, List.flatten_nil, List.length_append, portByte_length]
    show 1 + (1 + (1 + (4 + (2 + (2 + (2 + (2 + (2 + 0)))))))) ≤ replyRoom
    decide
  · rw [ht]
    simp only [List.flatten_cons, List.flatten_nil, List.append_nil, List.append_assoc]

/-- A part that is not one of the nine. -/
theorem readStatus_range {part : U8} (h : 8 < part.toNat) (first count : U8) (s : State) :
    readStatus part first count s = refuse .range s := by
  have hne : ∀ k : U8, k.toNat ≤ 8 → part ≠ k := fun k hk he => by subst he; omega
  unfold readStatus
  rw [if_neg (hne 0 (by decide)), if_neg (hne 1 (by decide)), if_neg (hne 2 (by decide)), if_neg (hne 3 (by decide)),
    if_neg (hne 4 (by decide)), if_neg (hne 5 (by decide)), if_neg (hne 6 (by decide)), if_neg (hne 7 (by decide)),
    if_neg (hne 8 (by decide))]

/-- The parts that ignore the range are always given. -/
theorem readStatus_whole {part : U8} (h : 3 ≤ part.toNat) (h' : part.toNat ≤ 8) (first count : U8) (s : State) :
    (readStatus part first count s).1.code = .ok := by
  have hp : part = 3 ∨ part = 4 ∨ part = 5 ∨ part = 6 ∨ part = 7 ∨ part = 8 := by bv_omega
  rcases hp with rfl | rfl | rfl | rfl | rfl | rfl <;> rfl

theorem readStatus_link (first count : U8) (s : State) :
    (readStatus 7 first count s).1.data = leading replyRoom (linkStatus (s.seen s.shown)) := rfl

/-! ### The blocks kept for STATUS READ -/

theorem writeTable_shown {α : Type} (n : Nat) (first : U8) (es : List α) (check : Fin n → α → Option TableEntry)
    (prior : State → Fin n → List U8) (s : State) : (writeTable n first es check prior s).2.shown = s.shown := by
  unfold writeTable acceptEntries; dsimp only; (repeat' split) <;> rfl

theorem holdMessage_shown (mode : U8) (s : State) : (holdMessage mode s).2.shown = s.shown := by
  unfold holdMessage
  split
  · unfold holdOn; split <;> rfl
  · split
    · unfold holdApply; split <;> rfl
    · split
      · unfold holdDiscard; split <;> rfl
      · rfl

theorem placeCallMessage_shown (o : Origin) (call : RawCall) (s : State) : (placeCallMessage o call s).2.shown = s.shown := by
  unfold placeCallMessage; dsimp only; (repeat' split) <;> rfl

theorem clearMeters_shown (s : State) (first count : Nat) : (s.clearMeters first count).shown = s.shown := by
  unfold State.clearMeters
  rfl

theorem readMeter_shown (first count : U8) (s : State) : (readMeter first count s).2.shown = s.shown := by
  unfold readMeter
  dsimp only
  split
  · rfl
  · exact clearMeters_shown ..

theorem readTable_shown (table : U8) (place : ReadPlace) (s : State) : (readTable table place s).2.shown = s.shown := by
  unfold readTable
  split
  · (repeat' split) <;> rfl
  · split
    · rfl
    · split
      · exact readMeter_shown ..
      · (repeat' split) <;> rfl

/-- No message that is settled at execution touches what is kept for STATUS READ. -/
theorem settleNow_shown (o : Origin) (r : Request) (s : State) : (settleNow o r s).2.shown = s.shown := by
  cases r
  case writeInput => exact writeTable_shown _ _ _ _ _ s
  case writeCrosspoint => show (writeCrosspoint _ _ s).2.shown = _; unfold writeCrosspoint; unfold acceptEntries; dsimp only; (repeat' split) <;> rfl
  case writeBus => exact writeTable_shown _ _ _ _ _ s
  case writeOutput => exact writeTable_shown _ _ _ _ _ s
  case writeZone => exact writeTable_shown _ _ _ _ _ s
  case writeTalk => exact writeTable_shown _ _ _ _ _ s
  case writeVoice => exact writeTable_shown _ _ _ _ _ s
  case writeNode => exact writeTable_shown _ _ _ _ _ s
  case read => exact readTable_shown _ _ s
  case readMeter => exact readMeter_shown _ _ s
  case hold mode => exact holdMessage_shown mode s
  case cueStore => show (cueStore _ s).2.shown = _; unfold cueStore; dsimp only; (repeat' split) <;> rfl
  case cueRemove => show (cueRemove _ s).2.shown = _; unfold cueRemove; dsimp only; split <;> rfl
  case cueRead => show (cueRead _ _ s).2.shown = _; unfold cueRead; (repeat' split) <;> rfl
  case callPlace call => exact placeCallMessage_shown o call s
  case talk => show (talkMessage _ _ s).2.shown = _; unfold talkMessage; split <;> rfl
  case inputSelect => show (selectInput _ _ s).2.shown = _; unfold selectInput; dsimp only; (repeat' split) <;> rfl
  case capture => show (startCapture _ _ _ s).2.shown = _; unfold startCapture; dsimp only; (repeat' split) <;> rfl
  case captureAbort => show (abortCaptureMessage _ s).2.shown = _; unfold abortCaptureMessage; (repeat' split) <;> rfl
  case clipRemove => show (removeClip _ s).2.shown = _; unfold removeClip; dsimp only; (repeat' split) <;> rfl
  case status part first count => exact congrArg State.shown (readStatus_state part first count s)
  all_goals rfl

theorem answer_shown (s : State) (p : Option Nat) (r : Result) : (s.answer p r).shown = s.shown := by cases p <;> rfl

theorem handOver_shown (s : State) (o : Origin) (p : Option Nat) (r : Request) : (s.handOver o p r).shown = s.shown := by
  unfold State.handOver
  split
  · exact (answer_shown ..).trans (settleNow_shown o r s)
  · rfl
  · rfl
  · rfl

/-- After the execution the blocks are kept as they stood before it (R186). -/
theorem executeCompleted_shown (s : State) : s.executeCompleted.shown = s.view := by
  unfold State.executeCompleted
  split
  · rfl
  · dsimp only
    split
    · exact answer_shown ..
    · split
      · rfl
      · exact handOver_shown ..

/-- Settles O51, by the part that is asked for. -/
theorem statusReadChangesNothing : Obligations.StatusReadChangesNothing := by
  refine ⟨fun tag part first count s hb hh => ?_, fun u => congrArg View.link (executeCompleted_shown u)⟩
  let q := s.onMsg fun m => m.placed (.addressed tag)
  refine ⟨(readStatus part first count q).1, now_answered hb hh rfl rfl (Prod.ext rfl (readStatus_state part first count q)),
    fun h => congrArg Prod.fst (readStatus_range h first count q), fun h h' => readStatus_whole h h' first count q, fun h => ?_⟩
  subst h
  exact (readStatus_link first count q).trans (linkStatus_whole _)

end Sys2Proof.Machine

/-! SUPPORT. The warm reset and the show reset. -/

namespace Sys2Proof.Machine

open Sys2Proof

/-! ### The warm reset (R187) -/

/-- The inputs with their meters and flags cleared. -/
def zeroInputs (v : Vector InputRecord 64) : Vector InputRecord 64 := table fun i => { v[i] with meter := 0, clip := false }

/-- The buses with their meters and flags cleared. -/
def zeroBuses (v : Vector BusRecord 32) : Vector BusRecord 32 := table fun b => { v[b] with meter := 0, clip := false, limiting := false }

theorem zeroInputs_at (v : Vector InputRecord 64) (i : Fin 64) : (zeroInputs v)[i] = { v[i] with meter := 0, clip := false } :=
  table_at _ i

theorem zeroBuses_at (v : Vector BusRecord 32) (b : Fin 32) :
    (zeroBuses v)[b] = { v[b] with meter := 0, clip := false, limiting := false } :=
  table_at _ b

/-- The message controller after a warm reset. -/
def Msg.warmed (m : Msg) : Msg :=
  { m with assembler := none, replies := [], holdOpen := false, holdAge := 0, staged := [], events := [], conditions := 0 }

theorem warmReset_eq (s : State) : s.warmReset = { s with
    inputs := zeroInputs s.inputs, mix := { s.mix with buses := zeroBuses s.mix.buses }, msg := s.msg.warmed } := by
  unfold State.warmReset State.clearMetersAndFlags zeroInputs zeroBuses
  rfl

theorem answerReset_eq (s : State) (tag : U8) (p : Nat) (r : Request) :
    s.answerReset { origin := .addressed tag, place := some p, request := r } = s.onMsg fun m => { m with
      replies := [{ place := p, tag := tag, body := some (byte 0), completedAt := s.boundaries, cellsSent := 0 }] } := rfl

/-- A message that comes at its item, where nothing waits, is taken there and then. -/
theorem reset_taken {s : State} {it : Item} {o : Origin} {r : Request} {take : Option Nat → State → State} (ha : s.atItem it)
    (hw : runItem it s = s) (hh : s.hears o) :
    (s.awake fun s => s.messageAt it o r take) = .next (take (s.msg.placeOf o) (s.onMsg fun m => m.placed o)) := by
  rw [awake_next ha.1, messageAt_atItem ha hw hh]

/-- Settles O52: the reset of the stores, then the one reply. -/
theorem warmResetEmpties : Obligations.WarmResetEmpties := by
  intro tag s ha hw hh
  have hx : exec (.resetWarm (.addressed tag)) s = .next ((s.onMsg fun m => m.placed (.addressed tag)).takeWarmReset
      { origin := .addressed tag, place := some s.msg.nextPlace, request := .reset 0 }) :=
    reset_taken (take := fun place s => s.takeWarmReset { origin := .addressed tag, place := place, request := .reset 0 }) ha
      (warmResets_none s hw) hh
  refine ⟨_, hx, ?_⟩
  unfold State.takeWarmReset
  rw [answerReset_eq, warmReset_eq]
  exact ⟨rfl, zeroInputs_at s.inputs, zeroBuses_at s.mix.buses, rfl⟩

/-! ### The show reset (R110, R130, R155) -/

/-- Putting the codes of fades of distinct targets: each target has its own. -/
theorem putCodes_setCode (fs : List Fade) (h : (fs.map Fade.target).Nodup) (s : State) (u : Target) :
    (fs.foldl (fun s f => s.putCode f.target f.lastCode) s).setCode u
      = ((fs.find? fun f => f.target == u).elim (s.setCode u) Fade.lastCode) := by
  induction fs generalizing s with
  | nil => rfl
  | cons f fs ih =>
    obtain ⟨hf, hn⟩ := List.nodup_cons.mp h
    rw [List.foldl_cons, ih hn, putCode_setCode, List.find?_cons]
    by_cases hu : f.target = u
    · have hno : (fs.find? fun g => g.target == u) = none :=
        List.find?_eq_none.mpr fun g hg hgu => hf (hu ▸ beq_iff_eq.mp hgu ▸ List.mem_map_of_mem hg)
      rw [hno, if_pos hu.symm, beq_iff_eq.mpr hu]
      rfl
    · rw [if_neg fun e => hu e.symm, beq_false_of_ne hu]

theorem resetCues_setCode {s : State} (h : s.lawL3) (u : Target) :
    s.resetCues.setCode u = (s.fadeOf u).elim (s.setCode u) Fade.lastCode := by
  have hc : s.resetCues.setCode u = (s.cue.fades.foldl (fun s f => s.putCode f.target f.lastCode) s).setCode u := by
    unfold State.resetCues
    cases u <;> rfl
  rw [hc]
  exact putCodes_setCode s.cue.fades h.2 s u

/-- The voices after a show reset. -/
def idleVoices (v : Vector Voice 8) : Vector Voice 8 := table fun i => { v[i].toIdle with factorEnd := Config.unity }

theorem idleVoices_at (v : Vector Voice 8) (i : Fin 8) : (idleVoices v)[i] = { v[i].toIdle with factorEnd := Config.unity } :=
  table_at _ i

/-- What a show reset makes of the clip player, and what it leaves alone. -/
theorem resetVoices_keeps (s : State) : s.resetVoices.clip.voices = idleVoices s.clip.voices
    ∧ s.resetVoices.clip.capture = s.clip.capture ∧ s.resetVoices.relay = s.relay ∧ s.resetVoices.mix = s.mix
    ∧ s.resetVoices.inputs = s.inputs ∧ s.resetVoices.link = s.link := by
  have hv : s.resetVoices = State.takeReserve { s with clip := { s.clip with voices := idleVoices s.clip.voices } } := by
    unfold State.resetVoices idleVoices
    rfl
  rw [hv]
  unfold State.takeReserve
  split <;> exact ⟨rfl, rfl, rfl, rfl, rfl, rfl⟩

/-- The zones after a show reset. -/
def resetZones (lines : Vector Line 16) (v : Vector Zone 16) : Vector Zone 16 := table fun z => v[z].afterShowReset lines[z].asserted

theorem resetZones_at (lines : Vector Line 16) (v : Vector Zone 16) (z : Fin 16) :
    (resetZones lines v)[z] = v[z].afterShowReset lines[z].asserted :=
  table_at _ z

theorem refuseRelayRequests_keeps (s : State) : s.refuseRelayRequests.outside = s.outside
    ∧ s.refuseRelayRequests.relay = s.relay ∧ s.refuseRelayRequests.ports = s.ports
    ∧ s.msg.Grows s.refuseRelayRequests.msg 0 := by
  refine ⟨foldl_keeps State.outside _ (fun s (r : RelayRequest) => answer_outside s r.place _) _ s,
    foldl_keeps State.relay _ (fun s (r : RelayRequest) => answer_relay s r.place _) _ s,
    foldl_keeps State.ports _ (fun s (r : RelayRequest) => ?_) _ s, ?_⟩
  · cases r.place <;> rfl
  · unfold State.refuseRelayRequests
    generalize s.relay.requests = rs
    induction rs generalizing s with
    | nil => exact grows_refl _
    | cons r rs ih => exact grows_trans (answer_grows s r.place _) (ih _)

theorem onRelay_onDue_outside (s : State) (f : Relay → Relay) (g : List Item → List Item) :
    ((s.onRelay f).onDue g).outside = s.outside := rfl

/-- What a show reset makes of the relay controller, and what it leaves alone. -/
theorem resetCalls_keeps (s : State) : s.resetCalls.outside = s.outside ∧ s.resetCalls.relay.calls = []
    ∧ s.resetCalls.relay.zones = resetZones s.ports.ack s.relay.zones ∧ s.msg.Grows s.resetCalls.msg 0 := by
  obtain ⟨h1, h2, -, h4⟩ := refuseRelayRequests_keeps s
  refine ⟨(onRelay_onDue_outside ..).trans h1, resetCalls_calls s, ?_, (resetCalls_msg s).symm ▸ h4⟩
  unfold State.resetCalls resetZones
  rw [State.onDue_relay, State.onRelay_relay, h2]

/-- A target keeps its set code when nothing touches the crosspoints, the entries and the gain codes. -/
theorem setCode_congr {s t : State} (hm : t.mix = s.mix) (hz : ∀ z : Fin 16, t.relay.zones[z].entry = s.relay.zones[z].entry)
    (hv : ∀ v : Fin 8, t.clip.voices[v].gain = s.clip.voices[v].gain) (u : Target) : t.setCode u = s.setCode u := by
  cases u with
  | crosspoint i b => exact congrArg (fun m : Mix => m.crosspoints[i][b]) hm
  | busGain b => exact congrArg (fun m : Mix => m.buses[b].entry.gain) hm
  | zoneLevel z => exact congrArg ZoneEntry.level (hz z)
  | voiceGain v => exact hv v

/-- The blocks kept for STATUS READ and a post are nothing to the blocks. -/
theorem showPass_post_blocks (s : State) (p : Post) : (s.showPass.post p).cue = s.cue ∧ (s.showPass.post p).clip = s.clip
    ∧ (s.showPass.post p).relay = s.relay ∧ (s.showPass.post p).mix = s.mix ∧ (s.showPass.post p).inputs = s.inputs
    ∧ (s.showPass.post p).link = s.link := ⟨rfl, rfl, rfl, rfl, rfl, rfl⟩

theorem showPass_post_reported {s t : State} (h : s.msg.Grows t.msg 0) (hl : t.link.counter = s.link.counter) (p : Post) :
    s.reported (t.showPass.post p) 1 p :=
  reported_before (t := t.showPass) h hl (post_reported t.showPass p)

/-- What a show reset leaves, block by block. -/
theorem showReset_leaves {s : State} (h : s.lawL3) :
    s.showReset.cue = { s.cue with fades := [], follow := none, held := false, standby := s.cue.cues.head?.map Cue.number }
      ∧ (∀ u, s.showReset.setCode u = (s.fadeOf u).elim (s.setCode u) Fade.lastCode)
      ∧ (∀ v : Fin 8, ∃ g : Voice, s.showReset.clip.voices[v] = { g.toIdle with factorEnd := Config.unity })
      ∧ s.showReset.clip.clips = s.clip.clips ∧ s.showReset.clip.capture = s.clip.capture
      ∧ s.showReset.relay.calls = []
      ∧ (∀ z : Fin 16, s.showReset.relay.zones[z].call = none ∧ s.showReset.relay.zones[z].lamp = false)
      ∧ s.reported s.showReset 1 showResetPost ∧ s.showReset.inputs = s.inputs ∧ s.showReset.link = s.link := by
  obtain ⟨v1, v2, v3, v4, v5, v6⟩ := resetVoices_keeps s.resetCues
  have hcap : s.resetCues.clip.capture = s.clip.capture ∧ s.resetCues.inputs = s.inputs ∧ s.resetCues.link = s.link := by
    have hk : ∀ (t : State) (f : Fade), (t.putCode f.target f.lastCode).clip.capture = t.clip.capture
        ∧ (t.putCode f.target f.lastCode).inputs = t.inputs ∧ (t.putCode f.target f.lastCode).link = t.link := by
      intro t f; cases f.target <;> exact ⟨rfl, rfl, rfl⟩
    exact ⟨foldl_keeps (fun t => t.clip.capture) _ (fun t f => (hk t f).1) _ s, foldl_keeps State.inputs _ (fun t f => (hk t f).2.1) _ s,
      foldl_keeps State.link _ (fun t f => (hk t f).2.2) _ s⟩
  have hcl := (resetVoices_clips s.resetCues).trans (resetCues_clips s)
  have hcue := (resetVoices_cue s.resetCues).trans (resetCues_cue s)
  have hpm := (resetVoices_msg s.resetCues).trans (resetCues_msg s)
  unfold State.showReset
  generalize s.resetCues.resetVoices = p at v1 v2 v3 v4 v5 v6 hcl hcue hpm ⊢
  obtain ⟨h1, h2, h3, h4⟩ := resetCalls_keeps p
  obtain ⟨o1, o2, o3, o4, o5⟩ := outside_iff.mp h1
  obtain ⟨e1, e2, e3, e4, e5, e6⟩ := showPass_post_blocks p.resetCalls showResetPost
  have hpl : p.link = s.link := v6.trans hcap.2.2
  have hpz : p.relay.zones = s.resetCues.relay.zones := congrArg Relay.zones v3
  refine ⟨?_, fun u => ?_, fun v => ⟨s.resetCues.clip.voices[v], ?_⟩, ?_, ?_, ?_, fun z => ?_, ?_, ?_, ?_⟩
  · rw [e1, o1, hcue]
  · rw [← resetCues_setCode h u]
    refine setCode_congr ?_ (fun z => ?_) (fun v => ?_) u
    · exact e4.trans (o4.trans v4)
    · rw [e3, h3, resetZones_at, hpz]
      rfl
    · rw [e2, o2, v1]
      exact (congrArg Voice.gain (idleVoices_at s.resetCues.clip.voices v)).trans rfl
  · rw [e2, o2, v1]
    exact idleVoices_at _ v
  · rw [e2, o2]
    exact hcl
  · rw [e2, o2]
    exact v2.trans hcap.1
  · rw [e3, h2]
  · rw [e3, h3, resetZones_at]
    exact ⟨rfl, rfl⟩
  · rw [hpm] at h4
    exact showPass_post_reported h4 (congrArg Link.counter (o5.trans hpl)) showResetPost
  · exact e5.trans <| o3.trans (v5.trans hcap.2.1)
  · exact e6.trans (o5.trans hpl)

/-- Settles O53: the reset of the three blocks, then the answer. -/
theorem showResetClears : Obligations.ShowResetClears := by
  intro o s ha hw hh hl
  let q := s.onMsg fun m => m.placed o
  have hx : exec (.showReset o) s = .next (q.showReset.answer (s.msg.placeOf o) { code := .ok }) :=
    reset_taken (take := fun place s => s.takeShowReset { origin := o, place := place, request := .reset 1 }) ha
      (showResets_none s hw) hh
  obtain ⟨r1, r2, r3, r4, r5, r6, r7, r8, r9, r10⟩ := showReset_leaves (s := q) hl
  obtain ⟨a1, a2, a3, a4, a5⟩ := outside_iff.mp (answer_outside q.showReset (s.msg.placeOf o) { code := .ok })
  have a6 := answer_relay q.showReset (s.msg.placeOf o) { code := .ok }
  refine ⟨_, hx, ?_, ?_, ?_, ?_, ?_, fun u => ?_, fun v => ?_, ?_, ?_, ?_, fun z => ?_, ?_, a3.trans r9, a5.trans r10⟩
  · rw [a1, r1]
  · rw [a1, r1]
  · rw [a1, r1]
  · rw [a1, r1]; rfl
  · rw [a1, r1]; rfl
  · refine (setCode_congr a4 (fun z => by rw [a6]) (fun v => by rw [a2]) u).trans ((r2 u).trans ?_)
    cases u <;> rfl
  · obtain ⟨g, hg⟩ := r3 v
    rw [a2, hg]
    exact ⟨rfl, rfl, rfl, rfl⟩
  · rw [a2]; exact r4
  · rw [a2]; exact r5
  · rw [a6]; exact r6
  · rw [a6]; exact r7 z
  · exact reported_later (reported_before (s := s) (t := q) (placed_grows s.msg o) rfl r8) (answer_grows _ _ _)

end Sys2Proof.Machine

/-! SUPPORT. What the node writes into the frame it forwards. -/

namespace Sys2Proof.Machine

open Sys2Proof

/-! ### Flags of a 64-flag field (Table 8-1) -/

theorem setFlag_same (field : U64) {k : Nat} (hk : k < 64) (b : Bool) : (setFlag field k b).getLsbD (63 - k) = b := by
  have h : 63 - k < 64 := by omega
  unfold setFlag
  cases b <;> simp [h]

theorem setFlag_other (field : U64) (k : Nat) (b : Bool) {j : Nat} (hj : j ≠ 63 - k) :
    (setFlag field k b).getLsbD j = field.getLsbD j := by
  have hj' : 63 - k ≠ j := Ne.symm hj
  unfold setFlag
  cases b with
  | true => simp [BitVec.getLsbD_twoPow, hj']
  | false =>
    by_cases h : j < 64
    · rw [if_neg Bool.false_ne_true, BitVec.getLsbD_and, BitVec.getLsbD_not, BitVec.getLsbD_twoPow]
      simp [h, hj']
    · rw [BitVec.getLsbD_of_ge _ _ (by omega), BitVec.getLsbD_of_ge _ _ (by omega)]

/-! ### The forwarded frame (R167) -/

/-- What the sends of a frame leave of it: all but the slots and their flags. -/
def frameHead (f : Frame) : U32 × U8 × U8 × Cell × Cell × U64 := (f.number, f.flags, f.hop, f.request, f.answer, f.attention)

theorem writeSends_head (f : Frame) (xs : List (Fin 64 × Block)) : frameHead (xs.foldl writeSend f) = frameHead f := by
  induction xs generalizing f with
  | nil => rfl
  | cons x xs ih => exact (ih (writeSend f x)).trans rfl

theorem frameHead_iff {f g : Frame} : frameHead g = frameHead f ↔ g.number = f.number ∧ g.flags = f.flags ∧ g.hop = f.hop
    ∧ g.request = f.request ∧ g.answer = f.answer ∧ g.attention = f.attention := by
  simp [frameHead]

/-- The frame as it goes on, apart from its slots and its check. -/
theorem forwardedFrame_head (s : State) (f : Frame) (answer : Cell) :
    (s.forwardedFrame f answer).number = s.link.counter
      ∧ (s.forwardedFrame f answer).flags = (if !s.link.checked || f.damaged then 1 else 0)
      ∧ (s.forwardedFrame f answer).hop = BitVec.ofNat 8 (min Config.hopLimit (f.hop.toNat + 1))
      ∧ (s.forwardedFrame f answer).request = f.request
      ∧ (s.forwardedFrame f answer).answer = answer
      ∧ (s.forwardedFrame f answer).attention = s.msg.address.elim f.attention fun a =>
          setFlag f.attention a.toNat (!s.msg.events.isEmpty) := by
  have h : frameHead (s.forwardedFrame f answer) = _ := writeSends_head _ (sendsOf s.mix)
  obtain ⟨h1, h2, h3, h4, h5, h6⟩ := frameHead_iff.mp h
  refine ⟨h1, h2, h3, h4, h5, h6.trans ?_⟩
  cases s.msg.address <;> rfl

/-! ### The answer cell (R177) -/

/-- The answer cell goes on as it came. -/
theorem placeAnswer_passes {s : State} {offered : Bool} {c : Cell}
    (h : s.msg.address = none ∨ s.headReply = none ∨ (offered && c.address == 0) = false) : s.placeAnswer offered c = (c, s) := by
  unfold State.placeAnswer
  split
  · next ha hr =>
    rcases h with h | h | h
    · rw [h] at ha; cases ha
    · rw [h] at hr; cases hr
    · rw [if_neg (by rw [h]; decide)]
  · rfl

/-- The answer cell takes the next cell of the reply at the head. -/
theorem placeAnswer_takes {s : State} {offered : Bool} {c : Cell} {a : U8} {r : Reply} {body : List U8}
    (ha : s.msg.address = some a) (hr : s.headReply = some (r, body)) (h : (offered && c.address == 0) = true) :
    s.placeAnswer offered c = ((replyCell a r body).1, s.onMsg fun m => { m with
      replies := if (replyCell a r body).2 then m.replies.tail else { r with cellsSent := r.cellsSent + 1 } :: m.replies.tail }) := by
  unfold State.placeAnswer
  rw [ha, hr]
  exact if_pos h

theorem headReply_none {s : State} (h : s.msg.replies = [] ∨ ∃ r rest, s.msg.replies = r :: rest ∧ (r.body = none ∨ s.boundaries ≤ r.completedAt)) :
    s.headReply = none := by
  unfold State.headReply
  rcases h with h | ⟨r, rest, h, hb | hb⟩
  · rw [h]
  · rw [h]; dsimp only; rw [hb]
  · rw [h]
    dsimp only
    cases r.body with
    | none => rfl
    | some body => exact if_neg (by omega)

theorem headReply_complete {s : State} {r : Reply} {rest : List Reply} {body : List U8} (h : s.msg.replies = r :: rest)
    (hb : r.body = some body) (hc : r.completedAt < s.boundaries) : s.headReply = some (r, body) := by
  unfold State.headReply
  rw [h]
  dsimp only
  rw [hb]
  exact if_pos hc

/-- The placing of an answer takes from the reply queue, and that alone. -/
theorem placeAnswer_keeps (s : State) (offered : Bool) (c : Cell) :
    (s.placeAnswer offered c).2.msg.address = s.msg.address ∧ (s.placeAnswer offered c).2.msg.events = s.msg.events
      ∧ (s.placeAnswer offered c).2.link = s.link ∧ (s.placeAnswer offered c).2.mix = s.mix := by
  unfold State.placeAnswer
  split
  · dsimp only
    split <;> exact ⟨rfl, rfl, rfl, rfl⟩
  · exact ⟨rfl, rfl, rfl, rfl⟩

/-- The forwarding of a frame: the cell that is placed, and the frame that goes on. -/
theorem forward_eq {s : State} {f : Frame} (h : s.link.frame = some f) {offered : Bool}
    (ho : offered = (s.link.checked && !f.damaged)) :
    s.forward = ((s.placeAnswer offered f.answer).2.onLink fun l => { l with
      sent := some ((s.placeAnswer offered f.answer).2.forwardedFrame f (s.placeAnswer offered f.answer).1) }) := by
  subst ho
  unfold State.forward
  rw [h]

/-- The flags byte of a reply's cell. -/
theorem replyCell_eq (a : U8) (r : Reply) (body : List U8) :
    let content := (body.drop (28 * r.cellsSent)).take 28
    let last := decide (body.length ≤ 28 * (r.cellsSent + 1))
    (replyCell a r body).1.address = a ∧ (replyCell a r body).1.tag = r.tag
      ∧ (replyCell a r body).1.length.toNat = content.length
      ∧ (replyCell a r body).1.flags = BitVec.ofNat 8 ((if r.cellsSent = 0 then 128 else 0) + (if last then 64 else 0)
          + r.cellsSent % 16)
      ∧ (∀ k : Fin 28, (replyCell a r body).1.body[k] = content.getD k.val 0)
      ∧ (replyCell a r body).2 = last := by
  intro content last
  have hlen : content.length ≤ 28 := List.length_take_le 28 _
  refine ⟨rfl, rfl, ?_, ?_, fun k => table_at (fun i : Fin 28 => content.getD i.val 0) k, rfl⟩
  · show content.length % 256 = content.length
    exact Nat.mod_eq_of_lt (by omega)
  · show BitVec.ofNat 8 ((if (r.cellsSent == 0) = true then 128 else 0) + _ + _) = _
    by_cases h : r.cellsSent = 0
    · rw [if_pos h, if_pos (beq_iff_eq.mpr h)]; rfl
    · rw [if_neg h, if_neg (by simpa using h)]; rfl

/-- Settles O48: the bit of the attention field, and the answer cell by the head of the reply queue. -/
theorem forwardedFrameCarries : Obligations.ForwardedFrameCarries := by
  intro f s hf
  obtain ⟨offered, ho⟩ : ∃ b, b = (s.link.checked && !f.damaged) := ⟨_, rfl⟩
  have hfw := forward_eq hf ho
  obtain ⟨k1, k2, k3, k4⟩ := placeAnswer_keeps s offered f.answer
  let u := (s.placeAnswer offered f.answer).2
  let g := u.forwardedFrame f (s.placeAnswer offered f.answer).1
  obtain ⟨-, -, -, -, g5, g6⟩ := forwardedFrame_head u f (s.placeAnswer offered f.answer).1
  have hsent : (runItem .forward s).link.sent = some g := (congrArg (fun t : State => t.link.sent) hfw).trans rfl
  have hmsg : (runItem .forward s).msg = u.msg := (congrArg State.msg hfw).trans rfl
  have passes : s.placeAnswer offered f.answer = (f.answer, s) → g.answer = f.answer ∧ (runItem .forward s).msg = s.msg :=
    fun h => ⟨g5.trans (congrArg Prod.fst h), hmsg.trans (congrArg (fun p : Cell × State => p.2.msg) h)⟩
  refine ⟨g, hsent, fun ha => ⟨?_, (passes (placeAnswer_passes (.inl ha))).1⟩, fun a ha hlt => ?_⟩
  · rw [g6, k1, ha]; rfl
  · have hatt : g.attention = setFlag f.attention a.toNat (!s.msg.events.isEmpty) := by rw [g6, k1, k2, ha]; rfl
    refine ⟨?_, fun k hk => ?_, fun h => passes (placeAnswer_passes (.inr (.inr ?_))),
      fun h => (passes (placeAnswer_passes (.inr (.inl (headReply_none (.inl h)))))).1,
      fun r rest h hb => passes (placeAnswer_passes (.inr (.inl (headReply_none (.inr ⟨r, rest, h, hb⟩))))),
      fun r rest body h hb hc h1 h2 h3 => ?_⟩
    · rw [hatt, setFlag_same _ hlt]
    · rw [hatt, setFlag_other _ _ _ hk]
    · rw [ho]
      rcases h with h | h | h
      · simp [h]
      · simp [h]
      · rw [beq_false_of_ne h, Bool.and_false]
    · have htake := placeAnswer_takes (s := s) (offered := offered) (c := f.answer) ha (headReply_complete h hb hc)
        (by rw [ho, h1, h2, h3]; rfl)
      obtain ⟨c1, c2, c3, c4, c5, c6⟩ := replyCell_eq a r body
      have hans : g.answer = (replyCell a r body).1 := g5.trans (congrArg Prod.fst htake)
      refine ⟨hans ▸ c1, hans ▸ c2, hans ▸ c3, hans ▸ c4, fun k => hans ▸ c5 k, ?_⟩
      rw [hmsg]
      refine (congrArg (fun p : Cell × State => p.2.msg) htake).trans ?_
      rw [State.onMsg_msg, c6, h, List.tail_cons]

end Sys2Proof.Machine

/-! SUPPORT. The assembling of messages from request cells, and their places. -/

namespace Sys2Proof.Machine

open Sys2Proof

/-! ### Taking a place (R176) -/

theorem takePlace_free {s : State} (h : s.msg.replies.length < 4) (tag first : U8) :
    s.takePlace (.addressed tag) first = (some (some s.msg.nextPlace), s.onMsg fun m => m.placed (.addressed tag)) :=
  if_pos h

theorem takePlace_full {s : State} (h : 4 ≤ s.msg.replies.length) (tag first : U8) :
    s.takePlace (.addressed tag) first = (none, s.post (overrunPost tag first)) :=
  if_neg (Nat.not_lt.mpr h)

theorem takePlace_none {s : State} {o : Origin} (h : ∀ x, o ≠ .addressed x) (first : U8) : s.takePlace o first = (some none, s) := by
  cases o with
  | addressed tag => exact absurd rfl (h tag)
  | group a => rfl
  | broadcast => rfl

theorem complete_free {s : State} (h : s.msg.replies.length < 4) (tag : U8) (body : List U8) :
    s.complete (.addressed tag) body = s.onMsg fun m => { m.placed (.addressed tag) with
      completed := some { origin := .addressed tag, place := some s.msg.nextPlace, body := body } } := by
  unfold State.complete
  rw [takePlace_free h]
  rfl

theorem complete_full {s : State} (h : 4 ≤ s.msg.replies.length) (tag : U8) (body : List U8) :
    s.complete (.addressed tag) body = s.post (overrunPost tag (body.headD 0)) := by
  unfold State.complete
  rw [takePlace_full h]

theorem complete_unanswered {s : State} {o : Origin} (h : ∀ x, o ≠ .addressed x) (body : List U8) :
    s.complete o body = s.onMsg fun m => { m with completed := some { origin := o, place := none, body := body } } := by
  unfold State.complete
  rw [takePlace_none h]

/-! ### The cell of a frame (R172) -/

/-- The request cell is for this node: its own address, broadcast, or a group it belongs to. -/
def State.isMine (s : State) (c : Cell) : Prop :=
  s.msg.address = some c.address ∨ c.address = 63 ∨ (64 ≤ c.address.toNat ∧ c.address ∈ s.msg.node.groups.toList)

theorem cellOrigin_iff (s : State) (c : Cell) : (s.cellOrigin c).isSome = true ↔ s.isMine c := by
  have hg : s.takes (.group c.address) = true ↔ 64 ≤ c.address.toNat ∧ c.address ∈ s.msg.node.groups.toList := by
    simp [State.takes]
  unfold State.cellOrigin State.isMine
  rw [← hg]
  by_cases h1 : s.msg.address = some c.address
  · simp [h1]
  · by_cases h2 : c.address = Config.broadcastAddress
    · have h2' : c.address = 63 := h2
      rw [if_neg h1, if_pos h2]
      simp [h2']
    · have h2' : c.address ≠ 63 := h2
      rw [if_neg h1, if_neg h2]
      by_cases h3 : s.takes (.group c.address) = true
      · simp [h3]
      · simpa [h1, h3] using h2'

theorem takeCell_not {s : State} {f : Frame} (hf : s.link.frame = some f)
    (h : s.link.checked = false ∨ f.damaged = true ∨ ¬ s.isMine f.request) : s.takeCell = s := by
  have hc : ¬ (s.link.checked && !f.damaged && (s.cellOrigin f.request).isSome) = true := by
    rw [Bool.and_eq_true, cellOrigin_iff, Bool.and_eq_true, Bool.not_eq_true']
    rintro ⟨⟨h1, h2⟩, h3⟩
    rcases h with h | h | h
    · rw [h] at h1; cases h1
    · rw [h] at h2; cases h2
    · exact h h3
  unfold State.takeCell
  rw [hf]
  exact if_neg hc

theorem takeCell_mine {s : State} {f : Frame} (hf : s.link.frame = some f) (h1 : s.link.checked = true) (h2 : f.damaged = false)
    (h3 : s.isMine f.request) : s.takeCell = s.assemble f.request := by
  have hc : (s.link.checked && !f.damaged && (s.cellOrigin f.request).isSome) = true := by
    rw [h1, h2, (cellOrigin_iff s f.request).mpr h3]; rfl
  unfold State.takeCell
  rw [hf]
  exact if_pos hc

/-! ### The partial message (R173, R174) -/

/-- The partial message is discarded, which FRAGMENT_DISCARDED says. -/
def State.discarded (s : State) (r : FragmentReason) (tag : U8) : State :=
  (s.onMsg fun m => { m with assembler := none }).post (fragmentPost r tag)

theorem discardPartial_some {s : State} {p : Partial} (h : s.msg.assembler = some p) (r : FragmentReason) :
    s.discardPartial r = s.discarded r p.tag := by
  unfold State.discardPartial
  rw [h]
  rfl

theorem discardPartial_none {s : State} (h : s.msg.assembler = none) (r : FragmentReason) : s.discardPartial r = s := by
  unfold State.discardPartial
  rw [h]

/-- A node without a partial message. -/
theorem assembler_none {s : State} (h : s.msg.assembler = none) : (s.onMsg fun m => { m with assembler := none }) = s := by
  show ({ s with msg := { s.msg with assembler := none } } : State) = s
  rw [← h]

/-- A cell that is too long (R173 case 1). -/
theorem assemble_long {s : State} {c : Cell} (h : 28 < c.length.toNat) :
    s.assemble c = s.discarded .cellLength ((s.msg.assembler.map Partial.tag).getD c.tag) := by
  have hl : Config.cellBody < c.length.toNat := h
  unfold State.assemble
  rw [if_pos hl]
  cases ha : s.msg.assembler with
  | none => rw [State.discarded, assembler_none ha]; rfl
  | some p => exact discardPartial_some ha .cellLength

/-- A cell that starts a message (R173 cases 2 and 3). -/
theorem assemble_start {s : State} {c : Cell} (h : c.length.toNat ≤ 28) (hs : c.start = true) :
    s.assemble c = (s.discardPartial .newStart).advance c
      { destination := c.address, tag := c.tag, cells := 1, expected := 1, body := c.content } := by
  have hl : ¬ Config.cellBody < c.length.toNat := Nat.not_lt.mpr h
  unfold State.assemble
  rw [if_neg hl, if_pos hs]

/-- A cell that goes on with a message, where there is none (R173 case 4). -/
theorem assemble_stray {s : State} {c : Cell} (h : c.length.toNat ≤ 28) (hs : c.start = false) (ha : s.msg.assembler = none) :
    s.assemble c = s := by
  have hl : ¬ Config.cellBody < c.length.toNat := Nat.not_lt.mpr h
  unfold State.assemble
  rw [if_neg hl, if_neg (by rw [hs]; decide), ha]

/-- A cell that goes on with a message. -/
theorem assemble_more {s : State} {c : Cell} {p : Partial} (h : c.length.toNat ≤ 28) (hs : c.start = false)
    (ha : s.msg.assembler = some p) : s.assemble c = s.continueMessage c p := by
  have hl : ¬ Config.cellBody < c.length.toNat := Nat.not_lt.mpr h
  unfold State.assemble
  rw [if_neg hl, if_neg (by rw [hs]; decide), ha]

/-- Discarding a partial message does not change whose a message is. -/
theorem partialOrigin_discard (s : State) (r : FragmentReason) (p : Partial) :
    (s.discardPartial r).partialOrigin p = s.partialOrigin p := by
  have hk : (s.discardPartial r).msg.address = s.msg.address := by
    cases ha : s.msg.assembler with
    | none => rw [discardPartial_none ha]
    | some q =>
      rw [discardPartial_some ha]
      exact (congrArg Msg.address (post_still (s.onMsg fun m => { m with assembler := none }) (fragmentPost r q.tag))).trans rfl
  unfold State.partialOrigin
  rw [hk]

/-- A cell out of its place (R173 case 5). -/
theorem continue_broken {s : State} {c : Cell} {p : Partial} (h : c.address ≠ p.destination ∨ c.sequence ≠ p.expected) :
    s.continueMessage c p = s.discardPartial .sequence := if_pos h

/-- A cell in its place (R173 case 6). -/
theorem continue_longer {s : State} {c : Cell} {p : Partial} (h : c.address = p.destination) (hq : c.sequence = p.expected) :
    s.continueMessage c p = if 10 ≤ p.cells then s.overlong p
      else s.advance c { p with cells := p.cells + 1, expected := p.expected + 1, body := p.body ++ c.content } := by
  have hn : ¬ (c.address ≠ p.destination ∨ c.sequence ≠ p.expected) := by rw [h, hq]; simp
  exact if_neg hn

/-- The message an overlong partial message answers, or its discard (R174). -/
theorem overlong_addressed {s : State} {p : Partial} (h : s.msg.address = some p.destination) :
    (s.msg.replies.length < 4 → s.overlong p = (((s.onMsg fun m => { m with assembler := none }).onMsg fun m =>
        m.placed (.addressed p.tag)).answer (some s.msg.nextPlace) { code := .length }))
      ∧ (4 ≤ s.msg.replies.length → s.overlong p = (s.onMsg fun m => { m with assembler := none }).post
        (overrunPost p.tag (p.body.headD 0))) := by
  have ho : s.partialOrigin p = .addressed p.tag := if_pos h
  unfold State.overlong
  rw [ho]
  dsimp only
  refine ⟨fun hl => ?_, fun hl => ?_⟩
  · rw [takePlace_free (s := s.onMsg fun m => { m with assembler := none }) hl]
    rfl
  · rw [takePlace_full (s := s.onMsg fun m => { m with assembler := none }) hl]

theorem overlong_other {s : State} {p : Partial} (ha : s.msg.assembler = some p) (h : s.msg.address ≠ some p.destination) :
    s.overlong p = s.discarded .length p.tag := by
  unfold State.overlong State.partialOrigin
  rw [if_neg h]
  by_cases hb : p.destination = Config.broadcastAddress
  · rw [if_pos hb]
    exact discardPartial_some ha .length
  · rw [if_neg hb]
    exact discardPartial_some ha .length

/-! ### The execution -/

/-- Every other work of a boundary but the meters comes before the execution (log entry 7). -/
theorem needs_execute : ∀ it ∈ allItems, it ≠ .execute → isMeter it = false → it ∈ needs .execute := by decide

theorem execute_bad {s : State} {c : Completed} {code : ResultCode} (h : s.msg.completed = some c) (hp : parseBody c.body = .error code) :
    s.executeCompleted = (s.show.onMsg fun m => { m with completed := none }).answer c.place { code := code } := by
  unfold State.executeCompleted
  rw [h]
  dsimp only
  rw [hp]

theorem execute_good {s : State} {c : Completed} {r : Request} (h : s.msg.completed = some c) (hp : parseBody c.body = .ok r) :
    s.executeCompleted = if dropped c.origin r then s.show.onMsg fun m => { m with completed := none }
      else (s.show.onMsg fun m => { m with completed := none }).handOver c.origin c.place r := by
  unfold State.executeCompleted
  rw [h]
  dsimp only
  rw [hp]

/-- Settles O47: the cases of the assembler, the place, and the execution. -/
theorem requestCellsBecomeMessages : Obligations.RequestCellsBecomeMessages := by
  refine ⟨fun f s hf => ?_, fun tag body s => ⟨fun h => complete_free h tag body, fun h => complete_full h tag body,
    fun o h => complete_unanswered h body⟩, needs_execute, fun c s hc => ⟨fun code hp => execute_bad hc hp, fun r hp => execute_good hc hp⟩,
    fun tag r s hb hr hl => ?_⟩
  · intro c t empty ignored mine begun
    refine ⟨fun h => takeCell_not hf h, fun h1 h2 h3 => ?_⟩
    have ht : t = s.assemble c := takeCell_mine hf h1 h2 h3
    refine ⟨fun h => ht.trans (assemble_long h), fun h hs => ?_, fun h hs ha => ht.trans (assemble_stray h hs ha), fun p h hs ha => ?_⟩
    · intro opened
      have hopen : s.discardPartial .newStart = opened := by
        show _ = (s.msg.assembler.map fun p => ignored .newStart p.tag).getD s
        cases ha : s.msg.assembler with
        | none => exact discardPartial_none ha _
        | some p => exact discardPartial_some ha _
      rw [ht, assemble_start h hs, ← hopen, ← partialOrigin_discard s .newStart begun]
      rfl
    · intro longer
      have hm := ht.trans (assemble_more h hs ha)
      refine ⟨fun hne => hm.trans ((if_pos hne).trans (discardPartial_some ha .sequence)), fun h4 h5 h6 => ?_, fun h4 h5 h6 => ?_⟩
      · rw [hm, continue_longer h4 h5, if_neg (Nat.not_le.mpr h6)]
        rfl
      · have ho : t = s.overlong p := hm.trans ((continue_longer h4 h5).trans (if_pos h6))
        exact ⟨fun hd hl => ho.trans ((overlong_addressed hd).1 hl), fun hd hl => ho.trans ((overlong_addressed hd).2 hl),
          fun hd => ho.trans (overlong_other ha hd)⟩
  · have h1 : (s.reached (.addressed tag) && !dropped (.addressed tag) r) = true := by rw [hr]; rfl
    unfold State.messageNow
    rw [settle_between s hb.2]
    dsimp only
    rw [if_pos h1, takePlace_full hl]
    rfl

end Sys2Proof.Machine

/-! SUPPORT. Every body is read back: the fields of a request one by one, the entries of a table write, the actions of a cue. -/

namespace Sys2Proof.Machine

open Sys2Proof

/-! ### Fields (Table 9-3) -/

/-- The reader takes exactly these bytes from the front, whatever follows them, and gives this value. -/
def Reads {α : Type} (r : Reader α) (bs : List U8) (x : α) : Prop := ∀ rest, r (bs ++ rest) = some (x, rest)

/-- A reading in steps: the first field, then the others. -/
@[simp] theorem bind_apply {α β : Type} (r : Reader α) (f : α → Reader β) (bs : List U8) :
    (r >>= f) bs = (r bs).bind fun p => f p.1 p.2 := by
  show StateT.bind r f bs = _
  unfold StateT.bind
  cases r bs <;> rfl

@[simp] theorem pure_apply {α : Type} (x : α) (bs : List U8) : (pure x : Reader α) bs = some (x, bs) := rfl

@[simp] theorem map_apply {α β : Type} (r : Reader α) (f : α → β) (bs : List U8) :
    (f <$> r) bs = (r bs).map fun p => (f p.1, p.2) := by
  rw [map_eq_pure_bind, bind_apply]
  cases r bs <;> rfl

theorem reads_map {α β : Type} {r : Reader α} {bs : List U8} {x : α} (h : Reads r bs x) (f : α → β) : Reads (f <$> r) bs (f x) := by
  intro rest
  rw [map_apply, h rest]
  rfl

@[simp] theorem get1_cons (b : U8) (rest : List U8) : get1 (b :: rest) = some (b, rest) := rfl

/-- A number as its high and low parts. -/
theorem append_ofNat (w v n : Nat) : BitVec.ofNat w (n / 2 ^ v) ++ BitVec.ofNat v n = BitVec.ofNat (w + v) n := by
  apply BitVec.eq_of_toNat_eq
  rw [BitVec.toNat_append, BitVec.toNat_ofNat, BitVec.toNat_ofNat, BitVec.toNat_ofNat,
    ← Nat.shiftLeft_add_eq_or_of_lt (Nat.mod_lt _ (Nat.two_pow_pos v)), Nat.shiftLeft_eq, Nat.add_comm w v, Nat.pow_add,
    Nat.mod_mul, Nat.mul_comm, Nat.add_comm]

theorem get2_bytes2 (n : Nat) : Reads get2 (bytes2 n) (BitVec.ofNat 16 n) := by
  intro rest
  rw [← append_ofNat 8 8 n]
  rfl

theorem get4_bytes4 (n : Nat) : Reads get4 (bytes4 n) (BitVec.ofNat 32 n) := by
  intro rest
  rw [← append_ofNat 16 16 n]
  unfold get4 bytes4
  rw [bind_apply, List.append_assoc, get2_bytes2, Option.bind_some, bind_apply, get2_bytes2]
  rfl

theorem get8_bytes8 (n : Nat) : Reads get8 (bytes8 n) (BitVec.ofNat 64 n) := by
  intro rest
  rw [← append_ofNat 32 32 n]
  unfold get8 bytes8
  rw [bind_apply, List.append_assoc, get4_bytes4, Option.bind_some, bind_apply, get4_bytes4]
  rfl

theorem get2_put2 (x : U16) : Reads get2 (put2 x) x := by
  have h := get2_bytes2 x.toNat
  rwa [BitVec.ofNat_toNat, BitVec.setWidth_eq] at h

theorem get4_put4 (x : U32) : Reads get4 (put4 x) x := by
  have h := get4_bytes4 x.toNat
  rwa [BitVec.ofNat_toNat, BitVec.setWidth_eq] at h

theorem get8_put8 (x : U64) : Reads get8 (put8 x) x := by
  have h := get8_bytes8 x.toNat
  rwa [BitVec.ofNat_toNat, BitVec.setWidth_eq] at h

/-! ### Records -/

@[simp] theorem get2_apply (x : U16) (rest : List U8) : get2 (put2 x ++ rest) = some (x, rest) := get2_put2 x rest
@[simp] theorem get4_apply (x : U32) (rest : List U8) : get4 (put4 x ++ rest) = some (x, rest) := get4_put4 x rest
@[simp] theorem get8_apply (x : U64) (rest : List U8) : get8 (put8 x ++ rest) = some (x, rest) := get8_put8 x rest

@[simp] theorem getSource_apply (r : RawSource) (rest : List U8) : getSource (RawSource.bytes r ++ rest) = some (r, rest) := rfl

theorem reads_input (r : RawInput) : Reads getInput (RawInput.bytes r) r := by
  intro rest
  simp [getInput, RawInput.bytes]

theorem reads_bus (r : RawBus) : Reads getBus (RawBus.bytes r) r := by
  intro rest
  simp [getBus, RawBus.bytes]

theorem reads_output (r : RawOutput) : Reads getOutput (RawOutput.bytes r) r := by
  intro rest
  simp [getOutput, RawOutput.bytes]

theorem reads_zone (r : RawZone) : Reads getZone (RawZone.bytes r) r := by
  intro rest
  simp [getZone, RawZone.bytes]

theorem reads_talk (r : RawTalk) : Reads getTalk (RawTalk.bytes r) r := by
  intro rest
  simp [getTalk, RawTalk.bytes]

theorem reads_node (r : RawNode) : Reads getNode (RawNode.bytes r) r := by
  intro rest
  simp [getNode, RawNode.bytes]

theorem reads_window (w : RawWindow) : Reads getWindow (RawWindow.bytes w) w := fun _ => rfl

theorem reads_call (r : RawCall) : Reads getCall (RawCall.bytes r) r := by
  intro rest
  simp [getCall, RawCall.bytes]

/-! ### The actions of a cue (Table 5-2) -/

@[simp] theorem getAction_move (rest : List U8) : getAction (0#8 :: rest) = getMove rest := rfl
@[simp] theorem getAction_play (rest : List U8) : getAction (1#8 :: rest) = getPlay rest := rfl
@[simp] theorem getAction_stop (rest : List U8) : getAction (2#8 :: rest) = getStop rest := rfl
@[simp] theorem getAction_route (rest : List U8) : getAction (3#8 :: rest) = getRoute rest := rfl
@[simp] theorem getAction_call (rest : List U8) : getAction (4#8 :: rest) = getCallAction rest := rfl

theorem reads_action {a : RawAction} (h : a.known = true) : Reads getAction (RawAction.bytes a) a := by
  intro rest
  cases a with
  | move t c f sh => simp [getMove, RawAction.bytes, RawTarget.bytes]
  | play v c g l => simp [getPlay, RawAction.bytes]
  | stop v f => simp [getStop, RawAction.bytes]
  | route i a b => simp [getRoute, RawAction.bytes]
  | call z p c k r => simp [getCallAction, RawAction.bytes]
  | unknown k => cases h

theorem reads_actions {as : List RawAction} (h : as.all RawAction.known = true) :
    Reads (getActions as.length) (as.flatMap RawAction.bytes) as := by
  induction as with
  | nil => exact fun rest => rfl
  | cons a as ih =>
    intro rest
    rw [List.all_cons, Bool.and_eq_true] at h
    rw [List.flatMap_cons, List.append_assoc, List.length_cons, getActions, bind_apply, reads_action h.1, Option.bind_some]
    cases a with
    | unknown k => cases h.1
    | _ =>
      dsimp only
      rw [bind_apply, ih h.2]
      rfl

theorem reads_cue {c : RawCue} (h : c.wellFormed = true) : Reads getCue (RawCue.bytes c) c := by
  obtain ⟨hn, ha⟩ := Bool.and_eq_true_iff.mp h
  have hlt : c.actions.length < 256 := of_decide_eq_true hn
  have hc : (BitVec.ofNat 8 c.actions.length).toNat = c.actions.length := Nat.mod_eq_of_lt hlt
  intro rest
  simp [getCue, RawCue.bytes, byte, hc, reads_actions ha rest]

/-! ### Whole bodies (R175) -/

theorem exactly_reads {r : Reader Request} {bs : List U8} {x : Request} (h : Reads r bs x) : exactly r bs = .ok x := by
  have h0 := h []
  rw [List.append_nil] at h0
  unfold exactly
  rw [h0]

/-- Entries of one size, one after the other. -/
theorem reads_many {α : Type} {r : Reader α} {enc : α → List U8} (h : ∀ x, Reads r (enc x) x) (xs : List α) :
    Reads (getMany r xs.length) (xs.flatMap enc) xs := by
  induction xs with
  | nil => exact fun rest => rfl
  | cons x xs ih =>
    intro rest
    rw [List.flatMap_cons, List.append_assoc, List.length_cons, getMany, bind_apply, h x, Option.bind_some, bind_apply, ih]
    rfl

theorem flatMap_length {α : Type} {enc : α → List U8} {n : Nat} (h : ∀ x, (enc x).length = n) (xs : List α) :
    (xs.flatMap enc).length = xs.length * n := by
  induction xs with
  | nil => simp
  | cons x xs ih => rw [List.flatMap_cons, List.length_append, h x, ih, List.length_cons]; ring

/-- The entries of a TABLE WRITE (R178). -/
theorem wholeEntries_reads {α : Type} {size : Nat} {r : Reader α} {enc : α → List U8} (hs : 0 < size) (h : ∀ x, Reads r (enc x) x)
    (hl : ∀ x, (enc x).length = size) (f : List α → Request) (xs : List α) :
    wholeEntries size r f (xs.flatMap enc) = .ok (f xs) := by
  have hn := flatMap_length hl xs
  unfold wholeEntries
  rw [hn, if_pos (Nat.mul_mod_left _ _), Nat.mul_div_cancel _ hs]
  refine exactly_reads fun rest => ?_
  rw [bind_apply, reads_many h xs rest]
  rfl

/-- The place of a TABLE READ (R179, R181). -/
theorem reads_read {table : U8} {place : ReadPlace} (h : placeFits table place = true) :
    Reads getRead (table :: ReadPlace.bytes place) (.read table place) := by
  intro rest
  cases place with
  | window w =>
    have ht : table = 2 := beq_iff_eq.mp h
    subst ht
    simp [getRead, ReadPlace.bytes, reads_window w rest]
  | range first count =>
    have ht : ¬ table = 2#8 ∧ ¬ table = 9#8 := by simpa [placeFits] using h
    simp [getRead, ReadPlace.bytes, ht.1, ht.2]

theorem reads_cueRead (n : U32) (mode : U8) : Reads getCueRead (put4 n ++ [mode]) (.cueRead n mode) := by
  intro rest
  simp [getCueRead]

theorem reads_capture (clip : U8) (source : RawSource) (length : U32) :
    Reads getCapture ([clip] ++ RawSource.bytes source ++ put4 length) (.capture clip source length) := by
  intro rest
  simp [getCapture]

theorem reads_voicePlay (voice clip : U8) (gain : U16) (loop : U8) :
    Reads getVoicePlay ([voice, clip] ++ put2 gain ++ [loop]) (.voicePlay voice clip gain loop) := by
  intro rest
  simp [getVoicePlay]

theorem reads_voiceStop (voice : U8) (frames : U32) : Reads getVoiceStop ([voice] ++ put4 frames) (.voiceStop voice frames) := by
  intro rest
  simp [getVoiceStop]

/-- Settles O54: the kind, then the fields of each. -/
theorem bodiesReadBack : Obligations.BodiesReadBack := by
  intro r h
  have hs : r.shaped = true := (Bool.and_eq_true_iff.mp h).1
  cases r with
  | writeInput first es => exact wholeEntries_reads (size := 16) (by decide) reads_input (fun _ => rfl) (.writeInput first) es
  | writeCrosspoint w codes => exact wholeEntries_reads (size := 2) (by decide) get2_put2 (fun _ => rfl) (.writeCrosspoint w) codes
  | writeBus first es => exact wholeEntries_reads (size := 12) (by decide) reads_bus (fun _ => rfl) (.writeBus first) es
  | writeOutput first es => exact wholeEntries_reads (size := 3) (by decide) reads_output (fun _ => rfl) (.writeOutput first) es
  | writeZone first es => exact wholeEntries_reads (size := 15) (by decide) reads_zone (fun _ => rfl) (.writeZone first) es
  | writeTalk first es => exact wholeEntries_reads (size := 15) (by decide) reads_talk (fun _ => rfl) (.writeTalk first) es
  | writeVoice first codes => exact wholeEntries_reads (size := 2) (by decide) get2_put2 (fun _ => rfl) (.writeVoice first) codes
  | writeNode first es => exact wholeEntries_reads (size := 23) (by decide) reads_node (fun _ => rfl) (.writeNode first) es
  | read table place => exact exactly_reads (reads_read hs)
  | readMeter first count => rfl
  | hold mode => rfl
  | cueStore cue => exact exactly_reads (reads_map (reads_cue hs) Request.cueStore)
  | cueRemove n => exact exactly_reads (reads_map (get4_put4 n) .cueRemove)
  | cueRead n mode => exact exactly_reads (reads_cueRead n mode)
  | go n => exact exactly_reads (reads_map (get4_put4 n) .go)
  | standby n => exact exactly_reads (reads_map (get4_put4 n) .standby)
  | halt => rfl
  | resume => rfl
  | callPlace call => exact exactly_reads (reads_map (reads_call call) .callPlace)
  | callEnd k => exact exactly_reads (reads_map (get2_put2 k) .callEnd)
  | callCancel k => exact exactly_reads (reads_map (get2_put2 k) .callCancel)
  | talk group setting => rfl
  | inputSelect input choice => rfl
  | capture clip source length => exact exactly_reads (reads_capture clip source length)
  | captureAbort clip => rfl
  | clipRemove clip => rfl
  | voicePlay voice clip gain loop => exact exactly_reads (reads_voicePlay voice clip gain loop)
  | voiceStop voice frames => exact exactly_reads (reads_voiceStop voice frames)
  | status part first count => rfl
  | eventFetch max => rfl
  | flagsClear flags => exact exactly_reads (reads_map (get8_put8 flags) .flagsClear)
  | reset mode => rfl

end Sys2Proof.Machine

/-! SUPPORT. The show-stop call: the calls it cuts, the voice it takes, and the show it holds. -/

namespace Sys2Proof.Machine

open Sys2Proof

/-! ### Cuts -/

/-- What the cuts of a show-stop leave alone, besides the calls, the zones and the voices. -/
def State.beside (s : State) : List Cue × Option Nat × Bool × Vector InputRecord 64 × Mix × Link :=
  (s.cue.cues, s.cue.standby, s.cue.held, s.inputs, s.mix, s.link)

theorem beside_iff {s t : State} : t.beside = s.beside ↔ t.cue.cues = s.cue.cues ∧ t.cue.standby = s.cue.standby
    ∧ t.cue.held = s.cue.held ∧ t.inputs = s.inputs ∧ t.mix = s.mix ∧ t.link = s.link := by
  simp [State.beside]

/-- Some calls have been cut, each with at most so many events: every other call is as it was. -/
structure State.Cuts (s t : State) (ks : List Nat) (n : Nat) : Prop where
  others : ∀ j, j ∉ ks → t.callOf j = s.callOf j
  ids : (t.relay.calls.map Call.id).Sublist (s.relay.calls.map Call.id)
  grows : s.msg.Grows t.msg n
  beside : t.beside = s.beside

namespace State.Cuts

theorem refl (s : State) : s.Cuts s [] 0 := ⟨fun _ _ => rfl, List.Sublist.refl _, grows_refl _, rfl⟩

theorem trans {s t u : State} {ks ls : List Nat} {n m : Nat} (h : s.Cuts t ks n) (g : t.Cuts u ls m) : s.Cuts u (ks ++ ls) (n + m) where
  others j hj := by
    rw [List.mem_append, not_or] at hj
    exact (g.others j hj.2).trans (h.others j hj.1)
  ids := g.ids.trans h.ids
  grows := grows_trans h.grows g.grows
  beside := g.beside.trans h.beside

theorem link {s t : State} {ks : List Nat} {n : Nat} (h : s.Cuts t ks n) : t.link = s.link := (beside_iff.mp h.beside).2.2.2.2.2

/-- Cuts of the same call, one after the other. -/
theorem same {s t u : State} {k n m : Nat} (h : s.Cuts t [k] n) (g : t.Cuts u [k] m) : s.Cuts u [k] (n + m) :=
  ⟨fun j hj => (g.others j hj).trans (h.others j hj), g.ids.trans h.ids, grows_trans h.grows g.grows, g.beside.trans h.beside⟩

/-- A state in which nothing of this kind has changed. -/
theorem of_eq {s t : State} (hc : t.relay.calls = s.relay.calls) (hm : t.msg = s.msg) (hb : t.beside = s.beside) : s.Cuts t [] 0 :=
  ⟨fun j _ => by unfold State.callOf; rw [hc], by rw [hc], grows_of_eq hm, hb⟩

/-- The same, counted as a cut of one call. -/
theorem on {s t : State} (k : Nat) {n : Nat} (h : s.Cuts t [] n) : s.Cuts t [k] n :=
  ⟨fun j _ => h.others j List.not_mem_nil, h.ids, h.grows, h.beside⟩

theorem fold {f : State → Call → State} (hf : ∀ (s : State) (d : Call), s.Cuts (f s d) [d.id] 1) (ds : List Call) (s : State) :
    s.Cuts (ds.foldl f s) (ds.map Call.id) ds.length := by
  induction ds generalizing s with
  | nil => exact refl s
  | cons d ds ih =>
    have h := (hf s d).trans (ih (f s d))
    rw [List.length_cons, Nat.add_comm]
    exact h

/-- The cut of one call among those of several: it comes in a state that has its record, and leaves it to the end. -/
theorem reaches {f : State → Call → State} (hf : ∀ (s : State) (d : Call), s.Cuts (f s d) [d.id] 1) {ds : List Call} {d : Call}
    (hd : d ∈ ds) (hn : (ds.map Call.id).Nodup) (s : State) :
    ∃ (p : State) (as bs : List Nat) (n m : Nat), s.Cuts p as n ∧ (f p d).Cuts (ds.foldl f s) bs m ∧ p.callOf d.id = s.callOf d.id
      ∧ d.id ∉ bs ∧ n + 1 + m = ds.length := by
  obtain ⟨as, bs, rfl⟩ := List.append_of_mem hd
  rw [List.map_append, List.map_cons] at hn
  have hn' := List.nodup_append.mp hn
  have ha : d.id ∉ as.map Call.id := fun h => hn'.2.2 _ h _ List.mem_cons_self rfl
  have hb : d.id ∉ bs.map Call.id := (List.nodup_cons.mp hn'.2.1).1
  have h1 := fold hf as s
  have h2 := fold hf bs (f (as.foldl f s) d)
  rw [List.foldl_append, List.foldl_cons]
  refine ⟨as.foldl f s, _, _, _, _, h1, h2, h1.others d.id ha, hb, ?_⟩
  rw [List.length_append, List.length_cons]
  omega

end State.Cuts

/-! ### The steps of a cut -/

theorem cuts_onCall (s : State) (k : Nat) (f : Call → Call) (hf : ∀ c : Call, (f c).id = c.id) : s.Cuts (s.onCall k f) [k] 0 where
  others j hj := (onCall_callOf s k j f hf).trans (if_neg fun h => hj (List.mem_singleton.mpr h))
  ids := by rw [onCall_ids s k f hf]
  grows := grows_refl _
  beside := rfl

theorem cuts_post (s : State) (k : Nat) (p : Post) : s.Cuts (s.post p) [k] 1 where
  others _ _ := rfl
  ids := List.Sublist.refl _
  grows := post_grows s p
  beside := rfl

theorem freeZones_beside (s : State) (k : Nat) :
    (s.freeZones k).relay.calls = s.relay.calls ∧ (s.freeZones k).beside = s.beside := by
  unfold State.freeZones
  exact ⟨rfl, rfl⟩

theorem cuts_freeZones (s : State) (k : Nat) : s.Cuts (s.freeZones k) [] 0 :=
  State.Cuts.of_eq (freeZones_beside s k).1 (freeZones_rest s k).1 (freeZones_beside s k).2

theorem cuts_endCall (s : State) (c : Call) (e : CallEnd) : s.Cuts (s.endCall c e) [c.id] 1 where
  others j hj := (endCall_callOf s c e j).trans (if_neg fun h => hj (List.mem_singleton.mpr h))
  ids := List.Sublist.map Call.id List.filter_sublist
  grows := post_grows (s.onRelay fun r => { r with calls := r.calls.filter fun d => d.id != c.id }) _
  beside := rfl

theorem cuts_backToWaiting (s : State) (k : Nat) : s.Cuts (s.backToWaiting k) [k] 0 := by
  have h1 := cuts_onCall s k (fun c => { c with
    state := .waiting, voice := none, waitCount := 0, acks := Vector.replicate 16 .notAsked, since := s.boundaries }) fun _ => rfl
  exact h1.same (cuts_onCall _ k _ fun x => by split <;> rfl)

/-- A call voice that is stopped, with the zones that carry its last frame. -/
theorem cuts_stopped (s : State) (zs : BitVec 16) (v : Fin 8) : s.Cuts ((s.callStop v).tailZones zs v) [] 0 := by
  unfold State.tailZones State.callStop
  exact State.Cuts.of_eq rfl rfl rfl

/-- What a cut does to the voice of a clip call that speaks (R151). -/
def State.cutVoice (s : State) (stopZones : BitVec 16) (taken : Bool) (d : Call) : State :=
  match d.state, d.voice with
  | .onAir true, some v => if taken then s else (s.callStop v).tailZones (d.zones &&& ~~~stopZones) v
  | _, _ => s

theorem cuts_cutVoice (s : State) (zs : BitVec 16) (taken : Bool) (d : Call) : s.Cuts (s.cutVoice zs taken d) [] 0 := by
  unfold State.cutVoice
  split
  · split
    · exact State.Cuts.refl s
    · exact cuts_stopped s _ _
  · exact State.Cuts.refl s

theorem cutCall_live (s : State) (stop : Nat) (zs : BitVec 16) (taken : Bool) {d : Call} {i : Fin 64} (hi : d.source = .input i) :
    s.cutCall stop zs taken d = (s.freeZones d.id).endCall d .cancelledCut := by
  unfold State.cutCall
  rw [hi]

theorem cutCall_clip (s : State) (stop : Nat) (zs : BitVec 16) (taken : Bool) {d : Call} {k : Nat} (hk : d.source = .clip k) :
    s.cutCall stop zs taken d = (((s.cutVoice zs taken d).freeZones d.id).backToWaiting d.id).post (callCutPost d.id stop) := by
  unfold State.cutCall
  rw [hk]
  rfl

theorem cuts_cutCall (s : State) (stop : Nat) (zs : BitVec 16) (taken : Bool) (d : Call) :
    s.Cuts (s.cutCall stop zs taken d) [d.id] 1 := by
  cases h : d.source with
  | input i =>
    rw [cutCall_live s stop zs taken h]
    exact ((cuts_freeZones s d.id).on d.id).same (cuts_endCall _ d _)
  | clip k =>
    rw [cutCall_clip s stop zs taken h]
    exact ((((cuts_cutVoice s zs taken d).on d.id).same ((cuts_freeZones _ d.id).on d.id)).same (cuts_backToWaiting _ d.id)).same
      (cuts_post _ d.id _)

/-! ### What has become of a call that was cut (R151) -/

/-- The record of a clip call that a show-stop has cut. -/
def Call.isCutBackOf (e d : Call) : Prop :=
  e.id = d.id ∧ e.state = .waiting ∧ e.waitCount = 0 ∧ e.voice = none ∧ e.zones = d.zones ∧ e.repeats = d.repeats
    ∧ e.passes = d.passes ∧ ∀ z : Fin 16, e.acks[z] = .notAsked

/-- A call has been cut by a stop: a live one is gone, a clip one waits again, and an event says so. -/
structure State.WasCut (s t : State) (room stop : Nat) (d : Call) : Prop where
  live : ∀ i, d.source = .input i → t.callOf d.id = none ∧ s.reported t room (callEndedPost d.id .cancelledCut d.unanswered)
  clip : ∀ k, d.source = .clip k → (∃ e, t.callOf d.id = some e ∧ e.isCutBackOf d) ∧ s.reported t room (callCutPost d.id stop)

theorem cutCall_wasCut {s : State} {d : Call} (hd : s.callOf d.id = some d) (stop : Nat) (zs : BitVec 16) (taken : Bool) :
    s.WasCut (s.cutCall stop zs taken d) 1 stop d where
  live i hi := by
    rw [cutCall_live s stop zs taken hi]
    have h := cuts_freeZones s d.id
    exact ⟨(endCall_callOf (s.freeZones d.id) d .cancelledCut d.id).trans (if_pos rfl),
      reported_before h.grows (congrArg Link.counter h.link) (reported_endCall (s.freeZones d.id) d .cancelledCut)⟩
  clip k hk := by
    rw [cutCall_clip s stop zs taken hk]
    have h := ((cuts_cutVoice s zs taken d).on d.id).same ((cuts_freeZones (s.cutVoice zs taken d) d.id).on d.id)
    have hg := h.same (cuts_backToWaiting ((s.cutVoice zs taken d).freeZones d.id) d.id)
    have hc : ((s.cutVoice zs taken d).freeZones d.id).callOf d.id = some d :=
      (freeZones_callOf ..).trans (((cuts_cutVoice s zs taken d).others d.id List.not_mem_nil).trans hd)
    obtain ⟨r, hr⟩ := backToWaiting_callOf hc
    refine ⟨⟨_, hr, rfl, rfl, rfl, rfl, rfl, rfl, rfl, fun z => ?_⟩,
      reported_before hg.grows (congrArg Link.counter hg.link) (post_reported _ (callCutPost d.id stop))⟩
    exact Vector.getElem_replicate ..

/-- A cut call stays cut while its record is left. -/
theorem wasCut_later {s t u : State} {room stop n : Nat} {d : Call} (h : s.WasCut t room stop d)
    (hc : u.callOf d.id = t.callOf d.id) (g : t.msg.Grows u.msg n) : s.WasCut u room stop d where
  live i hi := ⟨hc.trans (h.live i hi).1, reported_later (h.live i hi).2 g⟩
  clip k hk := by
    obtain ⟨⟨e, he, hb⟩, hr⟩ := h.clip k hk
    exact ⟨⟨e, hc.trans he, hb⟩, reported_later hr g⟩

/-- A call cut after others have been. -/
theorem wasCut_before {s t u : State} {room stop n m : Nat} {ks : List Nat} {d : Call} (g : s.Cuts t ks n) (h : t.WasCut u room stop d)
    (hm : room + n ≤ m) : s.WasCut u m stop d where
  live i hi := ⟨(h.live i hi).1, reported_mono (reported_before g.grows (congrArg Link.counter g.link) (h.live i hi).2) hm⟩
  clip k hk := ⟨(h.clip k hk).1, reported_mono (reported_before g.grows (congrArg Link.counter g.link) (h.clip k hk).2) hm⟩

/-- A call that was cut is not on air. -/
theorem wasCut_silent {s t : State} {room stop : Nat} {d e : Call} (h : s.WasCut t room stop d) (he : t.callOf d.id = some e) :
    e.isOnAir = false := by
  cases hs : d.source with
  | input i =>
    have := (h.live i hs).1
    rw [he] at this
    cases this
  | clip k =>
    obtain ⟨⟨f, hf, hb⟩, -⟩ := h.clip k hs
    have hfe : e = f := Option.some.inj (he.symm.trans hf)
    unfold Call.isOnAir
    rw [hfe, hb.2.1]

end Sys2Proof.Machine

/-! SUPPORT. The show-stop call on its way to the air. -/

namespace Sys2Proof.Machine

open Sys2Proof

/-! ### The voice of a clip stop (R150) -/

theorem cuts_callStart (s : State) (v : Fin 8) (k n : Nat) : s.Cuts (s.callStart v k n) [] 0 := State.Cuts.of_eq rfl rfl rfl

theorem cuts_reportEnd (s : State) (v : Fin 8) (p : Playback) (e : EndCause) : s.Cuts (s.reportEnd v p e) [] 0 := by
  obtain ⟨-, hx, hi, hm, hl, -, -, hc, -, -, hcs, hsb, hh⟩ := reportEnd_keeps s v p e
  exact State.Cuts.of_eq hc hm (beside_iff.mpr ⟨hcs, hsb, hh, hi, hx, hl⟩)

theorem cuts_callTake (s : State) (v : Fin 8) (k n : Nat) : s.Cuts (s.callTake v k n) [] 0 := by
  unfold State.callTake
  dsimp only
  split
  · exact (cuts_callStart s v k n).trans (cuts_reportEnd _ v _ _)
  · exact cuts_callStart s v k n

theorem cuts_dropTails (s : State) (v : Fin 8) : s.Cuts (s.dropTails v) [] 0 := by
  unfold State.dropTails
  exact State.Cuts.of_eq rfl rfl rfl

/-- The voice given to the stop, before the call it served is cut. -/
def State.voiceGiven (s : State) (c : Call) (v : Fin 8) (k : Nat) (take : Bool) : State :=
  if take then (s.callTake v k c.id).dropTails v else s.callStart v k c.id

theorem cuts_voiceGiven (s : State) (c : Call) (v : Fin 8) (k : Nat) (take : Bool) : s.Cuts (s.voiceGiven c v k take) [] 0 := by
  unfold State.voiceGiven
  split
  · exact (cuts_callTake s v k c.id).trans (cuts_dropTails _ v)
  · exact cuts_callStart s v k c.id

theorem giveVoice_unserved {s : State} {v : Fin 8} (h : s.servedCall v = none) (c : Call) (k : Nat) (take : Bool) :
    s.giveVoice c v k take = s.voiceGiven c v k take := by
  unfold State.giveVoice
  rw [h]
  rfl

theorem giveVoice_served {s : State} {v : Fin 8} {d : Call} (h : s.servedCall v = some d) (c : Call) (k : Nat) (take : Bool) :
    s.giveVoice c v k take = (s.voiceGiven c v k take).cutCall c.id c.zones true d := by
  unfold State.giveVoice
  rw [h]
  rfl

theorem servedCall_onAir {s : State} {v : Fin 8} {d : Call} (h : s.servedCall v = some d) : d ∈ s.relay.calls ∧ d.isOnAir = true := by
  have hb := List.find?_some h
  rw [Bool.and_eq_true] at hb
  exact ⟨List.mem_of_find?_eq_some h, hb.2⟩

/-- A voice of the call side that does not change side. -/
def State.isCallVoice (s : State) (v : Fin 8) : Bool := !s.isCueVoice v && !s.changesSide v

theorem isCallVoice_iff (s : State) (v : Fin 8) : s.isCallVoice v = true ↔ 8 - s.clip.reserve ≤ v.val ∧ s.changesSide v = false := by
  simp [State.isCallVoice, State.isCueVoice]

/-- A clip stop finds a voice exactly when there is one of the call side that does not change side. -/
theorem stopVoiceFor_none {s : State} (k : Nat) (h : ∀ v, s.isCallVoice v = false) : s.stopVoiceFor k = .noVoice := by
  have hf : s.freeCallVoice k = none := List.find?_eq_none.mpr fun v _ => by
    have hv := h v
    unfold State.isCallVoice at hv
    unfold State.voiceFree
    cases h1 : s.isCueVoice v <;> cases h2 : s.changesSide v <;> simp_all
  have hn : ((List.finRange 8).find? fun v => !s.isCueVoice v && !s.changesSide v) = none :=
    List.find?_eq_none.mpr fun v _ => Bool.eq_false_iff.mp (h v)
  unfold State.stopVoiceFor
  rw [hf]
  dsimp only
  rw [hn]

theorem stopVoiceFor_some {s : State} (k : Nat) {v : Fin 8} (h : s.isCallVoice v = true) :
    ∃ u, s.stopVoiceFor k = .start u ∨ s.stopVoiceFor k = .take u := by
  unfold State.stopVoiceFor
  cases s.freeCallVoice k with
  | some u => exact ⟨u, .inl rfl⟩
  | none =>
    cases hn : (List.finRange 8).find? fun v => !s.isCueVoice v && !s.changesSide v with
    | none => exact absurd h (List.find?_eq_none.mp hn v (List.mem_finRange v))
    | some u =>
      dsimp only
      by_cases hi : s.clip.voices[u].state = .idle
      · exact ⟨u, .inl (if_pos hi)⟩
      · exact ⟨u, .inr (if_neg hi)⟩

/-! ### The stop goes on air and the show is held (R150) -/

theorem cuts_goOnAir (s : State) (k : Nat) (b : Bool) (v : Option (Fin 8)) : s.Cuts (s.goOnAir k b v) [k] 0 where
  others j hj := by
    have hjk : j ≠ k := fun h => hj (List.mem_singleton.mpr h)
    cases hc : s.callOf k with
    | none =>
      have h : s.goOnAir k b v = s := by unfold State.goOnAir; rw [hc]
      rw [h]
    | some c => rw [goOnAir_callOf hc, if_neg hjk]
  ids := by rw [goOnAir_ids]
  grows := grows_of_eq (goOnAir_outside s k b v).2
  beside := by
    obtain ⟨h1, -, h3, h4, h5⟩ := outside_iff.mp (goOnAir_outside s k b v).1
    exact beside_iff.mpr ⟨congrArg CueEngine.cues h1, congrArg CueEngine.standby h1, congrArg CueEngine.held h1, h3, h4, h5⟩

/-- HELD is SET, with CUE_HELD when it was CLEAR (R107). -/
theorem hold_leaves (s : State) (b : Bool) : (s.hold b).cue.held = true ∧ (s.hold b).relay = s.relay
    ∧ (s.hold b).cue.cues = s.cue.cues ∧ (s.hold b).cue.standby = s.cue.standby ∧ (s.hold b).inputs = s.inputs
    ∧ (s.hold b).mix = s.mix ∧ (s.hold b).link = s.link ∧ s.msg.Grows (s.hold b).msg 1
    ∧ (s.cue.held = false → s.reported (s.hold b) 1 (heldPost b)) := by
  unfold State.hold
  split
  · next h => exact ⟨h, rfl, rfl, rfl, rfl, rfl, rfl, grows_mono (grows_refl _) (Nat.zero_le 1), fun hf => by rw [h] at hf; cases hf⟩
  · exact ⟨rfl, rfl, rfl, rfl, rfl, rfl, rfl, post_grows (s.onCue fun c => { c with held := true }) _,
      fun _ => post_reported (s.onCue fun c => { c with held := true }) _⟩

/-- The calls that a stop cuts in its zones (R151). -/
def State.inWay (s : State) (c : Call) : List Call := s.relay.calls.filter fun d => d.isOnAir && d.zones &&& c.zones != 0

theorem mem_inWay (s : State) (c d : Call) : d ∈ s.inWay c ↔ d ∈ s.relay.calls ∧ d.isOnAir = true ∧ d.zones &&& c.zones ≠ 0 := by
  simp [State.inWay]

/-- The state once every call in the way of a stop has been cut. -/
def State.wayCleared (s : State) (c : Call) : State :=
  (s.inWay c).foldl (fun s d => s.cutCall c.id c.zones false d) s

theorem stopSpeaks_eq (s : State) (c : Call) (v : Option (Fin 8)) :
    s.stopSpeaks c v = (((s.wayCleared c).goOnAir c.id true v).hold true).post (showStopPost c.id c.zones) := rfl

/-- What has been cut on the way of a stop to the air, from the state of its step to the one in which it goes on air. -/
structure State.Cleared (s t : State) (c : Call) (cut : List Call) : Prop where
  cuts : s.Cuts t (cut.map Call.id) cut.length
  members : ∀ d ∈ cut, d ∈ s.relay.calls ∧ d.isOnAir = true ∧ s.WasCut t cut.length c.id d
  nodup : (cut.map Call.id).Nodup

/-- The calls in the way are cut, after the one whose voice the stop has taken. -/
theorem wayCleared_clears {s p : State} {c : Call} {cut : List Call} (hl : s.callsLawful) (h : s.Cleared p c cut) :
    s.Cleared (p.wayCleared c) c (cut ++ p.inWay c) := by
  have hpn : (p.relay.calls.map Call.id).Nodup := h.cuts.ids.nodup hl.1
  have hwn : ((p.inWay c).map Call.id).Nodup := (List.filter_sublist.map Call.id).nodup hpn
  have hfold := State.Cuts.fold (f := fun s d => s.cutCall c.id c.zones false d) (fun s d => cuts_cutCall s c.id c.zones false d)
    (p.inWay c) p
  have apart : ∀ d ∈ p.inWay c, ∀ x ∈ cut, x.id ≠ d.id := by
    intro d hd x hx he
    obtain ⟨hdm, hda, -⟩ := (mem_inWay p c d).mp hd
    have := wasCut_silent (h.members x hx).2.2 (e := d) (he ▸ callOf_of_mem hpn hdm)
    rw [hda] at this
    cases this
  have notCut : ∀ d ∈ p.inWay c, d.id ∉ cut.map Call.id := fun d hd hm => by
    obtain ⟨x, hx, he⟩ := List.mem_map.mp hm
    exact apart d hd x hx he
  have hcuts := h.cuts.trans hfold
  rw [← List.map_append, ← List.length_append] at hcuts
  refine ⟨hcuts, fun d hd => ?_, ?_⟩
  · rcases List.mem_append.mp hd with hd | hd
    · obtain ⟨h1, h2, h3⟩ := h.members d hd
      have hnot : d.id ∉ (p.inWay c).map Call.id := fun hm => by
        obtain ⟨x, hx, he⟩ := List.mem_map.mp hm
        exact apart x hx d hd he.symm
      refine ⟨h1, h2, wasCut_before (State.Cuts.refl s) (wasCut_later h3 (hfold.others d.id hnot) hfold.grows) ?_⟩
      rw [List.length_append]
      omega
    · obtain ⟨hdm, hda, -⟩ := (mem_inWay p c d).mp hd
      have hpd : p.callOf d.id = some d := callOf_of_mem hpn hdm
      have hsd : s.callOf d.id = some d := (h.cuts.others d.id (notCut d hd)).symm.trans hpd
      obtain ⟨q, as, bs, n, m, g1, g2, g3, g4, g5⟩ := State.Cuts.reaches (f := fun s d => s.cutCall c.id c.zones false d)
        (fun s d => cuts_cutCall s c.id c.zones false d) hd hwn p
      have hq := cutCall_wasCut (g3.trans hpd) c.id c.zones false
      refine ⟨(mem_of_callOf hsd).1, hda, ?_⟩
      refine wasCut_before (h.cuts.trans g1) (wasCut_later hq (g2.others d.id g4) g2.grows) ?_
      rw [List.length_append]
      omega
  · rw [List.map_append]
    refine List.nodup_append.mpr ⟨h.nodup, hwn, fun a ha b hb => ?_⟩
    obtain ⟨x, hx, rfl⟩ := List.mem_map.mp ha
    obtain ⟨d, hd, rfl⟩ := List.mem_map.mp hb
    exact apart d hd x hx

/-- The voice of a clip stop is given to it, and the call it served is cut. -/
theorem giveVoice_clears {s : State} (hl : s.callsLawful) (c : Call) (v : Fin 8) (k : Nat) (take : Bool) :
    s.Cleared (s.giveVoice c v k take) c (s.servedCall v).toList := by
  have hg := cuts_voiceGiven s c v k take
  cases hs : s.servedCall v with
  | none =>
    rw [giveVoice_unserved hs]
    exact ⟨hg, fun d hd => absurd hd List.not_mem_nil, List.nodup_nil⟩
  | some d =>
    obtain ⟨hm, ha⟩ := servedCall_onAir hs
    rw [giveVoice_served hs]
    have hd : (s.voiceGiven c v k take).callOf d.id = some d := (hg.others d.id List.not_mem_nil).trans (callOf_of_mem hl.1 hm)
    refine ⟨hg.trans (cuts_cutCall _ c.id c.zones true d), fun x hx => ?_, List.nodup_singleton _⟩
    have hxd : x = d := List.mem_singleton.mp hx
    subst hxd
    exact ⟨hm, ha, wasCut_before hg (cutCall_wasCut hd c.id c.zones true) (Nat.le_refl _)⟩

/-- The call goes on air speaking, HELD is SET, and SHOW_STOP_ON_AIR is posted (R150 steps 3 to 5). -/
theorem stop_airs {q : State} {c : Call} (hc : q.callOf c.id = some c) (voice : Option (Fin 8)) {t : State}
    (ht : t = ((q.goOnAir c.id true voice).hold true).post (showStopPost c.id c.zones)) :
    t.cue.held = true ∧ q.reported t 2 (showStopPost c.id c.zones) ∧ (q.cue.held = false → q.reported t 2 (heldPost true))
      ∧ t.callOf c.id = some (c.aired true voice q.boundaries)
      ∧ (∀ z : Fin 16, c.zones.getLsbD z.val = true → t.relay.zones[z].call = some c.id)
      ∧ (∀ j, j ≠ c.id → t.callOf j = q.callOf j) ∧ t.relay.calls.map Call.id = q.relay.calls.map Call.id
      ∧ q.msg.Grows t.msg 2
      ∧ t.cue.cues = q.cue.cues ∧ t.cue.standby = q.cue.standby ∧ t.inputs = q.inputs ∧ t.mix = q.mix ∧ t.link = q.link := by
  have hg := cuts_goOnAir q c.id true voice
  have hgc := goOnAir_callOf hc true voice
  have hgz := goOnAir_zone hc true voice
  have hgi := goOnAir_ids q c.id true voice
  obtain ⟨b1, b2, b3, b4, b5, b6⟩ := beside_iff.mp hg.beside
  generalize q.goOnAir c.id true voice = u at ht hg hgc hgz hgi b1 b2 b3 b4 b5 b6
  obtain ⟨l1, l2, l3, l4, l5, l6, l7, l8, l9⟩ := hold_leaves u true
  generalize u.hold true = w at ht l1 l2 l3 l4 l5 l6 l7 l8 l9
  subst ht
  have co : ∀ j, (w.post (showStopPost c.id c.zones)).callOf j = u.callOf j := fun j => by
    show w.relay.calls.find? _ = _
    rw [l2]
    rfl
  have grown := grows_trans hg.grows l8
  refine ⟨l1, ?_, fun hh => ?_, ?_, fun z hz => ?_, fun j hj => ?_, ?_, ?_, l3.trans b1, l4.trans b2, l5.trans b4, l6.trans b5, l7.trans b6⟩
  · exact reported_before grown (congrArg Link.counter (l7.trans b6)) (post_reported w _)
  · exact reported_mono (reported_later (reported_before hg.grows (congrArg Link.counter b6) (l9 (b3.trans hh))) (post_grows w _))
      (by decide)
  · rw [co, hgc, if_pos rfl]
  · show w.relay.zones[z].call = _
    rw [l2, hgz, if_pos hz]
  · rw [co, hgc, if_neg hj]
  · show w.relay.calls.map Call.id = _
    rw [l2, hgi]
  · exact grows_trans grown (post_grows w _)

/-- The calls that a stop cuts are no more than those of the queue, it is none of them, and they are those in its zones and the one
whose voice it takes. -/
theorem cleared_calls {s p : State} {c : Call} {cut : List Call} (hl : s.callsLawful) (hc : c ∈ s.relay.calls)
    (hst : c.state = .waiting) (h : s.Cleared p c cut) :
    c.id ∉ (cut ++ p.inWay c).map Call.id ∧ (cut ++ p.inWay c).length ≤ s.relay.calls.length
      ∧ ∀ d ∈ s.relay.calls, d.id ∈ (cut ++ p.inWay c).map Call.id ↔ d.isOnAir = true ∧ (d.zones &&& c.zones ≠ 0 ∨ d ∈ cut) := by
  have hq := wayCleared_clears hl h
  have mem_of_id : ∀ l : List Call, (∀ x ∈ l, x ∈ s.relay.calls) → ∀ d ∈ s.relay.calls, d.id ∈ l.map Call.id → d ∈ l := by
    intro l hlm d hd hm
    obtain ⟨x, hx, he⟩ := List.mem_map.mp hm
    exact call_of_id hl.1 (hlm x hx) hd he ▸ hx
  have hmem : ∀ x ∈ cut ++ p.inWay c, x ∈ s.relay.calls := fun x hx => (hq.members x hx).1
  refine ⟨fun hm => ?_, ?_, fun d hd => ⟨fun hm => ?_, fun ⟨ha, hz⟩ => List.mem_map_of_mem (List.mem_append.mpr ?_)⟩⟩
  · have hon := (hq.members c (mem_of_id _ hmem c hc hm)).2.1
    unfold Call.isOnAir at hon
    rw [hst] at hon
    cases hon
  · have hsub : (cut ++ p.inWay c).map Call.id ⊆ s.relay.calls.map Call.id := fun k hk => by
      obtain ⟨x, hx, rfl⟩ := List.mem_map.mp hk
      exact List.mem_map_of_mem (hmem x hx)
    have hle := (hq.nodup.subperm hsub).length_le
    rwa [List.length_map, List.length_map] at hle
  · have hdm := mem_of_id _ hmem d hd hm
    refine ⟨(hq.members d hdm).2.1, (List.mem_append.mp hdm).elim .inr fun hw => .inl ((mem_inWay p c d).mp hw).2.2⟩
  · by_cases hcut : d ∈ cut
    · exact .inl hcut
    · have hnot : d.id ∉ cut.map Call.id := fun hm => hcut (mem_of_id cut (fun x hx => (h.members x hx).1) d hd hm)
      have hpd : p.callOf d.id = some d := (h.cuts.others d.id hnot).trans (callOf_of_mem hl.1 hd)
      exact .inr ((mem_inWay p c d).mpr ⟨(mem_of_callOf hpd).1, ha, hz.resolve_right hcut⟩)

/-- What a stop leaves once it is on air: it speaks in its zones, the calls in its way have been cut, the others are as they were, and
the show is held. -/
theorem stopSpeaks_leaves {s p : State} {c : Call} {cut : List Call} (hl : s.callsLawful) (hc : c ∈ s.relay.calls)
    (hst : c.state = .waiting) (h : s.Cleared p c cut) (voice : Option (Fin 8)) {t : State} (ht : t = p.stopSpeaks c voice)
    {room : Nat} (hr : room = s.relay.calls.length + 2) :
    t.cue.held = true ∧ s.reported t room (showStopPost c.id c.zones)
      ∧ (s.cue.held = false → s.reported t room (heldPost true))
      ∧ (∃ n, t.callOf c.id = some (c.aired true voice n))
      ∧ (∀ z : Fin 16, c.zones.getLsbD z.val = true → t.relay.zones[z].call = some c.id)
      ∧ (∀ d ∈ t.relay.calls, d.id ≠ c.id → d.isOnAir = true → d.zones &&& c.zones = 0)
      ∧ (∀ d ∈ s.relay.calls, d.isOnAir = true ∧ (d.zones &&& c.zones ≠ 0 ∨ d ∈ cut) → s.WasCut t room c.id d)
      ∧ (∀ d ∈ s.relay.calls, d.id ≠ c.id → ¬ (d.isOnAir = true ∧ (d.zones &&& c.zones ≠ 0 ∨ d ∈ cut)) → d ∈ t.relay.calls)
      ∧ t.cue.cues = s.cue.cues ∧ t.cue.standby = s.cue.standby ∧ t.inputs = s.inputs ∧ t.mix = s.mix ∧ t.link = s.link := by
  have hq := wayCleared_clears hl h
  obtain ⟨hcn, hcount, hwhich⟩ := cleared_calls hl hc hst h
  have hqc : (p.wayCleared c).callOf c.id = some c := (hq.cuts.others c.id hcn).trans (callOf_of_mem hl.1 hc)
  obtain ⟨a1, a2, a3, a4, a5, a6, a7, a8, a9, a10, a11, a12, a13⟩ := stop_airs hqc voice (ht.trans (stopSpeaks_eq p c voice))
  generalize p.wayCleared c = q at hq hqc a2 a3 a4 a6 a7 a8 a9 a10 a11 a12 a13
  obtain ⟨b1, b2, b3, b4, b5, b6⟩ := beside_iff.mp hq.cuts.beside
  have hctr := congrArg Link.counter b6
  have htn : (t.relay.calls.map Call.id).Nodup := a7 ▸ hq.cuts.ids.nodup hl.1
  have wasCut : ∀ d ∈ s.relay.calls, d.id ∈ (cut ++ p.inWay c).map Call.id → s.WasCut t room c.id d := by
    intro d hd hm
    obtain ⟨x, hx, he⟩ := List.mem_map.mp hm
    obtain ⟨hxm, -, hxc⟩ := hq.members x hx
    have hxd : x = d := call_of_id hl.1 hxm hd he
    subst hxd
    have hne : x.id ≠ c.id := fun hxc => hcn (hxc ▸ hm)
    exact wasCut_before (State.Cuts.refl s) (wasCut_later hxc (a6 x.id hne) a8) (by omega)
  have kept : ∀ d ∈ s.relay.calls, d.id ≠ c.id → d.id ∉ (cut ++ p.inWay c).map Call.id → t.callOf d.id = some d :=
    fun d hd hne hm => (a6 d.id hne).trans ((hq.cuts.others d.id hm).trans (callOf_of_mem hl.1 hd))
  refine ⟨a1, ?_, fun hh => ?_, ⟨_, a4⟩, a5, fun d hd hne ha => ?_, fun d hd hz => wasCut d hd ((hwhich d hd).mpr hz),
    fun d hd hne hz => (mem_of_callOf (kept d hd hne fun hm => hz ((hwhich d hd).mp hm))).1,
    a9.trans b1, a10.trans b2, a11.trans b4, a12.trans b5, a13.trans b6⟩
  · exact reported_mono (reported_before hq.cuts.grows hctr a2) (by omega)
  · exact reported_mono (reported_before hq.cuts.grows hctr (a3 (b3.trans hh))) (by omega)
  · have htd := callOf_of_mem htn hd
    obtain ⟨x, hx, he⟩ : ∃ x ∈ s.relay.calls, x.id = d.id := List.mem_map.mp (hq.cuts.ids.subset (a7 ▸ List.mem_map_of_mem hd))
    by_cases hm : d.id ∈ (cut ++ p.inWay c).map Call.id
    · have := wasCut_silent (wasCut x hx (he ▸ hm)) (he ▸ htd)
      rw [ha] at this
      cases this
    · have hxd : x = d := Option.some.inj ((kept x hx (he ▸ hne) (he ▸ hm)).symm.trans (he ▸ htd))
      subst hxd
      by_contra hz
      exact hm ((hwhich x hx).mpr ⟨ha, .inl hz⟩)

end Sys2Proof.Machine

/-! SUPPORT. The step of a relay pass in which the show-stop call takes the show. -/

namespace Sys2Proof.Machine

open Sys2Proof

/-- A lawful queue holds one show-stop call. -/
theorem stop_unique {s : State} (hl : s.callsLawful) {c d : Call} (hc : c ∈ s.relay.calls) (hd : d ∈ s.relay.calls) (hcp : c.priority = 3)
    (hdp : d.priority = 3) : c = d := by
  have hcm : c ∈ s.relay.calls.filter fun c => c.priority == 3 := List.mem_filter.mpr ⟨hc, beq_iff_eq.mpr hcp⟩
  have hdm : d ∈ s.relay.calls.filter fun c => c.priority == 3 := List.mem_filter.mpr ⟨hd, beq_iff_eq.mpr hdp⟩
  obtain ⟨a, ha⟩ := List.length_eq_one_iff.mp (Nat.le_antisymm hl.2.2 (List.length_pos_of_mem hcm))
  rw [ha] at hcm hdm
  exact (List.mem_singleton.mp hcm).trans (List.mem_singleton.mp hdm).symm

theorem relayStops_eq {s : State} (hl : s.callsLawful) {c : Call} (hc : c ∈ s.relay.calls) (hp : c.priority = 3)
    (hst : c.state = .waiting) (hs : c.fromPass ≤ s.boundaries) : s.relayStops = s.showStop c := by
  have hf : (s.relay.calls.find? fun c => c.priority == 3 && c.state == .waiting && s.takesPart c) = some c := by
    cases h : s.relay.calls.find? fun c => c.priority == 3 && c.state == .waiting && s.takesPart c with
    | none =>
      have := List.find?_eq_none.mp h c hc
      simp [hp, hst, State.takesPart, hs] at this
    | some d =>
      have hd := List.find?_some h
      rw [Bool.and_eq_true, Bool.and_eq_true] at hd
      rw [stop_unique hl (List.mem_of_find?_eq_some h) hc (beq_iff_eq.mp hd.1.1) hp]
  unfold State.relayStops
  rw [hf]

/-- A clip stop that finds a voice (R150 step 1). -/
theorem showStop_voiced {s : State} {c : Call} {k : Nat} {v : Fin 8} (hk : c.source = .clip k)
    (hv : s.stopVoiceFor c.id = .start v ∨ s.stopVoiceFor c.id = .take v) :
    ∃ take, s.showStop c = (s.giveVoice c v k take).stopSpeaks c (some v) := by
  unfold State.showStop
  rw [hk]
  dsimp only
  rcases hv with hv | hv
  · exact ⟨false, by rw [hv]⟩
  · exact ⟨true, by rw [hv]⟩

theorem showStop_voiceless {s : State} {c : Call} {k : Nat} (hk : c.source = .clip k) (hv : s.stopVoiceFor c.id = .noVoice) :
    s.showStop c = s.endCall c .cancelledNoVoice := by
  unfold State.showStop
  rw [hk]
  dsimp only
  rw [hv]

theorem showStop_live {s : State} {c : Call} {i : Fin 64} (hi : c.source = .input i) : s.showStop c = s.stopSpeaks c none := by
  unfold State.showStop
  rw [hi]

/-- The voice that a stop takes is one. -/
theorem stopVoiceFor_unique {s : State} {k : Nat} {u v : Fin 8} (hu : s.stopVoiceFor k = .start u ∨ s.stopVoiceFor k = .take u)
    (hv : s.stopVoiceFor k = .start v ∨ s.stopVoiceFor k = .take v) : u = v := by
  rcases hu with hu | hu <;> rcases hv with hv | hv <;> rw [hu] at hv <;> cases hv <;> rfl

/-- Settles O43: the voice of the stop, then its way to the air. -/
theorem showStopTakesTheShow : Obligations.ShowStopTakesTheShow := by
  intro c s ha hl hc hp hst hs room voiced cut
  let w := s.without .relayStops
  have hlw : w.callsLawful := hl
  have hx : exec .showStopOnAir s = .next (w.showStop c) := by
    refine (stepIn_next ha ?_).trans (congrArg _ ((runDue_atItem ha).trans (relayStops_eq hlw hc hp hst hs)))
    exact List.any_eq_true.mpr ⟨c, hc, by simp [hp, hst, State.takesPart, hs]⟩
  refine ⟨fun hv => ?_, fun ⟨k, hk⟩ hv => ?_⟩
  · obtain ⟨p, voice, l, hsp, hcl, hcut⟩ : ∃ p voice l, w.showStop c = p.stopSpeaks c voice ∧ w.Cleared p c l
        ∧ ∀ d, cut d ↔ d.isOnAir = true ∧ (d.zones &&& c.zones ≠ 0 ∨ d ∈ l) := by
      cases hcs : c.source with
      | input i =>
        refine ⟨w, none, [], showStop_live hcs, ⟨State.Cuts.refl w, fun d hd => absurd hd List.not_mem_nil, List.nodup_nil⟩, fun d => ?_⟩
        simp [cut, hcs]
      | clip k =>
        obtain ⟨v, hvv⟩ : ∃ v, voiced v := hv.resolve_left fun ⟨i, hi⟩ => by rw [hcs] at hi; cases hi
        obtain ⟨u, hu⟩ := stopVoiceFor_some (s := w) c.id ((isCallVoice_iff w v).mpr hvv)
        obtain ⟨take, ht⟩ := showStop_voiced hcs hu
        refine ⟨_, _, _, ht, giveVoice_clears hlw c u k take, fun d => and_congr_right fun _ => or_congr_right ?_⟩
        rw [Option.mem_toList]
        constructor
        · rintro ⟨-, v', -, hv', hd⟩
          have huv : u = v' := stopVoiceFor_unique hu hv'
          exact huv ▸ hd
        · exact fun hd => ⟨k, u, hcs, hu, hd⟩
    obtain ⟨r1, r2, r3, ⟨n, r4⟩, r5, r6, r7, r8, r9, r10, r11, r12, r13⟩ :=
      stopSpeaks_leaves hlw hc hst hcl voice hsp (room := room) rfl
    obtain ⟨hm, hmi⟩ := mem_of_callOf r4
    refine ⟨_, hx, r1, r2, r3, ⟨_, hm, hmi, rfl, rfl, rfl, fun hr z hz => asked_at hr z hz⟩, r5, r6, fun d hd hdc => ?_,
      fun d hd hne hdc => r8 d hd hne fun h => hdc ((hcut d).mpr h), r9, r10, r11, r12, r13⟩
    have hwc := r7 d hd ((hcut d).mp hdc)
    refine ⟨fun i hi => ?_, fun k hk => ?_⟩
    · obtain ⟨hg, hr⟩ := hwc.live i hi
      exact ⟨(callGone_iff _ _).mpr hg, hr⟩
    · obtain ⟨⟨e, he, hb⟩, hr⟩ := hwc.clip k hk
      exact ⟨⟨e, (mem_of_callOf he).1, hb⟩, hr⟩
  · have hn : w.stopVoiceFor c.id = .noVoice := stopVoiceFor_none c.id fun v =>
      Bool.eq_false_iff.mpr fun h => hv v ((isCallVoice_iff w v).mp h)
    rw [showStop_voiceless hk hn] at hx
    refine ⟨_, hx, (callGone_iff _ _).mpr ((endCall_callOf w c .cancelledNoVoice c.id).trans (if_pos rfl)),
      reported_endCall w c .cancelledNoVoice, rfl, rfl, rfl⟩

end Sys2Proof.Machine

/-! SUPPORT. What the work of a boundary leaves alone, as one relation between states: the clocks, the blocks handed in and the mix of
the frame before; the output map, but for a write of it; and what the message controller has been told, but for a message that
takes it away. One lemma for each operation, in the order of the definitions. -/

namespace Sys2Proof.Machine

open Sys2Proof

/-! ### What the message controller has been told -/

/-- An event of an always reported kind has reached the message controller: its condition is SET, and its record is in the queue
unless the queue is full. -/
def Msg.Heard (m : Msg) (x : EventRecord) : Prop :=
  m.condition x.post.kind = true ∧ (m.events.length < Config.maxEvents → x ∈ m.events)

/-- An event has reached the message controller, or is on its way to it. -/
def Msg.Told (m : Msg) (x : EventRecord) : Prop := m.Heard x ∨ x ∈ m.coming

/-- No post comes late any more. -/
def Msg.Prompt (m : Msg) : Prop := m.late = [] ∧ m.coming = []

/-- No message waits to be executed and no warm RESET to be taken: nothing takes away what has been posted. -/
def Msg.Calm (m : Msg) : Prop := m.completed = none ∧ ∀ w ∈ m.resets, w.isWarm = false

/-- Nothing that the message controller has been told is taken away. -/
structure Msg.Adds (m n : Msg) : Prop where
  told : ∀ x, x.post.kind.alwaysReported = true → m.Told x → n.Told x
  prompt : m.Prompt → n.Prompt
  calm : m.Calm → n.Calm

theorem Msg.Adds.refl (m : Msg) : m.Adds m := ⟨fun _ _ h => h, id, id⟩

theorem Msg.Adds.trans {a b c : Msg} (h : a.Adds b) (g : b.Adds c) : a.Adds c :=
  ⟨fun x hx hm => g.told x hx (h.told x hx hm), g.prompt ∘ h.prompt, g.calm ∘ h.calm⟩

/-- The parts of the message controller that say what it has been told. -/
def Msg.news (m : Msg) : (List EventRecord × U64) × (List Poster × List EventRecord) × (Option Completed × List Waiting) :=
  ((m.events, m.conditions), (m.late, m.coming), (m.completed, m.resets))

theorem Msg.Adds.of_news {m n : Msg} (h : n.news = m.news) : m.Adds n := by
  simp only [Msg.news, Prod.mk.injEq] at h
  obtain ⟨⟨h1, h2⟩, ⟨h3, h4⟩, h5, h6⟩ := h
  refine ⟨fun x _ => ?_, ?_, ?_⟩
  · simp only [Msg.Told, Msg.Heard, Msg.condition, h1, h2, h4, imp_self]
  · simp only [Msg.Prompt, h3, h4, imp_self]
  · simp only [Msg.Calm, h5, h6, imp_self]

/-- What a post leaves of the message controller: what had been heard, and what is still to come. -/
theorem heard_post {m : Msg} {x : EventRecord} (h : m.Heard x) (n : U32) (p : Post) : (m.post n p).Heard x := by
  obtain ⟨-, -, ⟨l, he, -⟩, -, hc⟩ := msg_post_grows m n p
  refine ⟨hc _ h.1, fun hl => ?_⟩
  rw [he, List.length_append] at hl
  rw [he]
  exact List.mem_append_left _ (h.2 (by omega))

theorem post_way (m : Msg) (n : U32) (p : Post) :
    (m.post n p).late = m.late ∧ (m.post n p).coming = m.coming ∧ (m.post n p).completed = m.completed
      ∧ (m.post n p).resets = m.resets := by
  unfold Msg.post
  dsimp only
  (repeat' split) <;> exact ⟨rfl, rfl, rfl, rfl⟩

/-- A post of an always reported kind is heard. -/
theorem post_heard (m : Msg) (n : U32) {p : Post} (h : p.kind.alwaysReported = true) :
    (m.post n p).Heard { stamp := n, post := p } := by
  refine ⟨msg_post_condition m n p, ?_⟩
  unfold Msg.post Msg.reports
  simp only [h, Bool.or_true, ↓reduceIte]
  split
  · exact fun _ => List.mem_append_right _ List.mem_cons_self
  · next hl => exact fun hl' => absurd hl' hl

theorem Msg.Adds.of_post (m : Msg) (n : U32) (p : Post) : m.Adds (m.post n p) := by
  obtain ⟨hl, hc, hd, hr⟩ := post_way m n p
  refine ⟨fun x _ h => h.imp (fun h => heard_post h n p) fun h => hc ▸ h, ?_, ?_⟩
  · simp only [Msg.Prompt, hl, hc, imp_self]
  · simp only [Msg.Calm, hd, hr, imp_self]

theorem Msg.Adds.of_send (m : Msg) (n : U32) (p : Post) : m.Adds (m.send n p) := by
  unfold Msg.send
  split
  · next hb =>
    refine ⟨fun x _ h => h.imp id fun h => List.mem_append_left _ h, fun h => ?_, id⟩
    simp [Msg.holdsBack, h.1, Option.any_eq_true_iff_get] at hb
  · exact .of_post m n p

/-- A turn of a block keeps what the message controller has been told. -/
theorem told_deliver {m : Msg} {x : EventRecord} (hx : x.post.kind.alwaysReported = true) (h : m.Told x) (b : Poster) :
    (m.deliver b).Told x := by
  unfold Msg.deliver
  split
  · next e he =>
    obtain h | h := h
    · exact .inl (heard_post (m := { m with coming := m.coming.erase e }) h _ _)
    · by_cases hxe : x = e
      · subst hxe
        exact .inl (post_heard _ x.stamp hx)
      · refine .inr ?_
        rw [(post_way _ _ _).2.1]
        exact (List.mem_erase_of_ne hxe).mpr h
  · exact h

theorem told_turns {x : EventRecord} (hx : x.post.kind.alwaysReported = true) (bs : List Poster) {m : Msg} (h : m.Told x) :
    (bs.foldl Msg.deliver m).Told x := by
  induction bs generalizing m with
  | nil => exact h
  | cons b bs ih => exact ih (told_deliver hx h b)

/-- A run of posts hears every event of the run, and keeps what had been heard. -/
theorem heard_posts {x : EventRecord} (hx : x.post.kind.alwaysReported = true) (es : List EventRecord) {m : Msg}
    (h : m.Heard x ∨ x ∈ es) : (es.foldl (fun m e => m.post e.stamp e.post) m).Heard x := by
  induction es generalizing m with
  | nil => exact h.resolve_right (by simp)
  | cons e es ih =>
    refine ih ?_
    obtain h | h := h
    · exact .inl (heard_post h _ _)
    · obtain rfl | h := List.mem_cons.mp h
      · exact .inl (post_heard m x.stamp hx)
      · exact .inr h

/-- What was told is heard once the late posts have come. -/
theorem arrive_heard {m : Msg} {x : EventRecord} (hx : x.post.kind.alwaysReported = true) (h : m.Told x) : m.arrive.Heard x :=
  heard_posts hx _ (told_turns hx m.late h)

theorem posts_way (es : List EventRecord) (m : Msg) :
    (es.foldl (fun m e => m.post e.stamp e.post) m).late = m.late
      ∧ (es.foldl (fun m e => m.post e.stamp e.post) m).coming = m.coming
      ∧ (es.foldl (fun m e => m.post e.stamp e.post) m).completed = m.completed
      ∧ (es.foldl (fun m e => m.post e.stamp e.post) m).resets = m.resets := by
  induction es generalizing m with
  | nil => exact ⟨rfl, rfl, rfl, rfl⟩
  | cons e es ih =>
    obtain ⟨a1, a2, a3, a4⟩ := ih (m.post e.stamp e.post)
    obtain ⟨b1, b2, b3, b4⟩ := post_way m e.stamp e.post
    exact ⟨a1.trans b1, a2.trans b2, a3.trans b3, a4.trans b4⟩

theorem turns_way (bs : List Poster) (m : Msg) :
    (bs.foldl Msg.deliver m).completed = m.completed ∧ (bs.foldl Msg.deliver m).resets = m.resets := by
  induction bs generalizing m with
  | nil => exact ⟨rfl, rfl⟩
  | cons b bs ih =>
    obtain ⟨a1, a2⟩ := ih (m.deliver b)
    have hb : (m.deliver b).completed = m.completed ∧ (m.deliver b).resets = m.resets := by
      unfold Msg.deliver
      split
      · exact (post_way _ _ _).2.2
      · exact ⟨rfl, rfl⟩
    exact ⟨a1.trans hb.1, a2.trans hb.2⟩

/-- After the late posts have come no post comes late any more. -/
theorem arrive_prompt (m : Msg) : m.arrive.Prompt := by
  obtain ⟨h1, h2, -⟩ := posts_way (m.late.foldl Msg.deliver m).coming
    { m.late.foldl Msg.deliver m with late := [], coming := [] }
  exact ⟨h1, h2⟩

theorem arrive_calm {m : Msg} (h : m.Calm) : m.arrive.Calm := by
  obtain ⟨-, -, h3, h4⟩ := posts_way (m.late.foldl Msg.deliver m).coming
    { m.late.foldl Msg.deliver m with late := [], coming := [] }
  obtain ⟨g1, g2⟩ := turns_way m.late m
  unfold Msg.Calm Msg.arrive
  dsimp only
  rw [h3, h4]
  dsimp only
  rw [g1, g2]
  exact h

theorem Msg.Adds.of_arrive (m : Msg) : m.Adds m.arrive :=
  ⟨fun _ hx h => .inl (arrive_heard hx h), fun _ => arrive_prompt m, arrive_calm⟩

/-! ### The relation -/

/-- The clocks, the blocks handed in, and the mix of the frame before. -/
def State.blocks (s : State) : (Clocking × Vector Block 8) × (Vector Block 32 × Vector Block 16) :=
  ((s.ports.clocks, s.ports.localIn), (s.mix.busOut, s.mix.zoneOut))

/-- A piece of work leaves the blocks alone; the output map when `maps` holds; and takes away nothing that was posted when `posts`
holds. -/
structure Works (maps posts : Prop) (s t : State) : Prop where
  blocks : t.blocks = s.blocks
  outputs : maps → t.mix.outputs = s.mix.outputs
  adds : posts → s.msg.Adds t.msg

namespace Works

variable {M P : Prop} {s t u : State}

theorem refl (s : State) : Works M P s s := ⟨rfl, fun _ => rfl, fun _ => .refl _⟩

theorem trans (h : Works M P s t) (g : Works M P t u) : Works M P s u :=
  ⟨g.blocks.trans h.blocks, fun m => (g.outputs m).trans (h.outputs m), fun p => (h.adds p).trans (g.adds p)⟩

/-- Work on other blocks than these. -/
theorem same (h : Works M P s t) (e : u.blocks = t.blocks) (o : u.mix.outputs = t.mix.outputs) (m : u.msg.news = t.msg.news) :
    Works M P s u :=
  h.trans ⟨e, fun _ => o, fun _ => .of_news m⟩

/-- A run of pieces of work is such work. -/
theorem foldl {α : Type} {f : State → α → State} (h : Works M P s t) (hf : ∀ v x, Works M P v (f v x)) (xs : List α) :
    Works M P s (xs.foldl f t) := by
  induction xs generalizing t with
  | nil => exact h
  | cons x xs ih => exact ih (h.trans (hf t x))

/-! ### One block at a time -/

theorem onMsg (h : Works M P s t) (f : Msg → Msg) (hf : P → t.msg.Adds (f t.msg)) : Works M P s (t.onMsg f) :=
  h.trans ⟨rfl, fun _ => rfl, hf⟩
theorem onLink (h : Works M P s t) (f : Link → Link) : Works M P s (t.onLink f) := h.same rfl rfl rfl
theorem onInputs (h : Works M P s t) (f : Vector InputRecord 64 → Vector InputRecord 64) : Works M P s (t.onInputs f) :=
  h.same rfl rfl rfl
theorem onCue (h : Works M P s t) (f : CueEngine → CueEngine) : Works M P s (t.onCue f) := h.same rfl rfl rfl
theorem onClip (h : Works M P s t) (f : ClipPlayer → ClipPlayer) : Works M P s (t.onClip f) := h.same rfl rfl rfl
theorem onRelay (h : Works M P s t) (f : Relay → Relay) : Works M P s (t.onRelay f) := h.same rfl rfl rfl
theorem onDue (h : Works M P s t) (f : List Item → List Item) : Works M P s (t.onDue f) := h.same rfl rfl rfl
theorem shown (h : Works M P s t) : Works M P s t.show := h.same rfl rfl rfl
theorem showPass (h : Works M P s t) : Works M P s t.showPass := h.same rfl rfl rfl
theorem onMix (h : Works M P s t) (f : Mix → Mix) (ho : (f t.mix).outputs = t.mix.outputs) (hb : (f t.mix).busOut = t.mix.busOut)
    (hz : (f t.mix).zoneOut = t.mix.zoneOut) : Works M P s (t.onMix f) :=
  h.trans ⟨by simp only [State.blocks, State.onMix_mix, State.onMix_ports, hb, hz], fun _ => ho, fun _ => .refl _⟩
theorem onPorts (h : Works M P s t) (f : Ports → Ports) (hc : (f t.ports).clocks = t.ports.clocks)
    (hl : (f t.ports).localIn = t.ports.localIn) : Works M P s (t.onPorts f) :=
  h.trans ⟨by simp only [State.blocks, State.onPorts_mix, State.onPorts_ports, hc, hl], fun _ => rfl, fun _ => .refl _⟩
theorem onInput (h : Works M P s t) (i : Fin 64) (f : InputRecord → InputRecord) : Works M P s (t.onInput i f) := h.onInputs _
theorem onBus (h : Works M P s t) (b : Fin 32) (f : BusRecord → BusRecord) : Works M P s (t.onBus b f) := h.onMix _ rfl rfl rfl
theorem onTalk (h : Works M P s t) (g : Fin 4) (f : TalkGroup → TalkGroup) : Works M P s (t.onTalk g f) := h.onMix _ rfl rfl rfl
theorem onVoice (h : Works M P s t) (v : Fin 8) (f : Voice → Voice) : Works M P s (t.onVoice v f) := h.onClip _
theorem onZone (h : Works M P s t) (z : Fin 16) (f : Zone → Zone) : Works M P s (t.onZone z f) := h.onRelay _

/-! ### Posts, places and answers -/

theorem post (h : Works M P s t) (p : Post) : Works M P s (t.post p) := h.onMsg _ fun _ => .of_send _ _ _
theorem postAll (h : Works M P s t) (ps : List Post) : Works M P s (t.postAll ps) := h.foldl (fun v p => (refl v).post p) ps
theorem postOnce (h : Works M P s t) (p : Post) : Works M P s (t.postOnce p) := by
  unfold State.postOnce
  split
  · exact h
  · exact h.post p
theorem latePosts (h : Works M P s t) : Works M P s t.latePosts := h.onMsg _ fun _ => .of_arrive _
theorem takePlace (h : Works M P s t) (o : Origin) (b : U8) : Works M P s (t.takePlace o b).2 := by
  unfold State.takePlace
  split
  · split
    · exact h.same rfl rfl rfl
    · exact h.post _
  · exact h
theorem answer (h : Works M P s t) (place : Option Nat) (r : Result) : Works M P s (t.answer place r) := by
  cases place with
  | none => exact h
  | some p => exact h.same rfl rfl rfl

/-! ### HELD, fades and voices -/

theorem closeItem (h : Works M P s t) (it : FollowItem) : Works M P s (t.closeItem it) := h.onCue _
theorem closeVoice (h : Works M P s t) (v : Fin 8) (n : Nat) : Works M P s (t.closeVoice v n) := by
  unfold State.closeVoice
  split
  · split
    · exact h.closeItem _
    · exact h
  · exact h
theorem dropFade (h : Works M P s t) (x : Target) : Works M P s (t.dropFade x) := (h.onCue _).closeItem _
theorem putCode (h : Works M P s t) (x : Target) (c : LevelCode) : Works M P s (t.putCode x c) := by
  cases x <;> exact h.same rfl rfl rfl
theorem putFade (h : Works M P s t) (f : Fade) : Works M P s (t.putFade f) := by
  unfold State.putFade
  split
  · dsimp only
    split
    · exact (h.onCue _).putCode _ _
    · exact ((h.onCue _).putCode _ _).closeItem _
  · exact (h.onCue _).putCode _ _
theorem hold (h : Works M P s t) (b : Bool) : Works M P s (t.hold b) := by
  unfold State.hold
  split
  · exact h
  · exact (h.onCue _).post _
theorem reportEnd (h : Works M P s t) (v : Fin 8) (p : Playback) (c : EndCause) : Works M P s (t.reportEnd v p c) := by
  unfold State.reportEnd
  split
  · exact h.closeVoice v _
  · exact h
  · exact h.onRelay _
theorem startVoice (h : Works M P s t) (v : Fin 8) (p : Playback) (g : LevelCode) : Works M P s (t.startVoice v p g) :=
  (h.dropFade _).onVoice v _
theorem restartVoice (h : Works M P s t) (v : Fin 8) (p : Playback) (g : LevelCode) : Works M P s (t.restartVoice v p g) := by
  unfold State.restartVoice
  dsimp only
  split
  · exact ((h.dropFade _).onVoice v _).closeVoice v _
  · exact (h.dropFade _).onVoice v _
theorem playVoice (h : Works M P s t) (v : Fin 8) (p : Playback) (g : LevelCode) : Works M P s (t.playVoice v p g) := by
  unfold State.playVoice
  split
  · exact h.startVoice v p g
  · exact h.restartVoice v p g
theorem silenceVoice (h : Works M P s t) (v : Fin 8) (g : Option LevelCode) : Works M P s (t.silenceVoice v g) := by
  unfold State.silenceVoice
  dsimp only
  split
  · exact ((h.dropFade _).onVoice v _).reportEnd v _ _
  · exact (h.dropFade _).onVoice v _
theorem fadeVoiceOut (h : Works M P s t) (v : Fin 8) (d : Nat) (o : Option Nat) (n : Nat) :
    Works M P s (t.fadeVoiceOut v d o n) := by
  unfold State.fadeVoiceOut
  split
  · exact h.silenceVoice v _
  · split
    · exact (h.putFade _).onVoice v _
    · exact (h.post _).silenceVoice v _
theorem stopVoice (h : Works M P s t) (v : Fin 8) (d : Nat) (o : Option Nat) (n : Nat) : Works M P s (t.stopVoice v d o n) := by
  unfold State.stopVoice
  dsimp only
  split
  · exact h
  · exact h.silenceVoice v _
  · split
    · exact (h.onVoice v _).closeVoice v _
    · exact h.onVoice v _
  · exact h
  · exact h.fadeVoiceOut v d o n
theorem leaveVoice (h : Works M P s t) (v : Fin 8) : Works M P s (t.leaveVoice v) := by
  unfold State.leaveVoice
  dsimp only
  split
  · split
    · exact (h.startVoice v _ _).onVoice v _
    · exact h.startVoice v _ _
  · split
    · exact (h.dropFade _).onVoice v _
    · exact h.onVoice v _
theorem endVoice (h : Works M P s t) (v : Fin 8) (c : EndCause) : Works M P s (t.endVoice v c) := by
  unfold State.endVoice
  split
  · exact (h.leaveVoice v).reportEnd v _ c
  · exact h.leaveVoice v
theorem callStart (h : Works M P s t) (v : Fin 8) (k id : Nat) : Works M P s (t.callStart v k id) := h.startVoice v _ _
theorem callStop (h : Works M P s t) (v : Fin 8) : Works M P s (t.callStop v) := h.onVoice v _
theorem callTake (h : Works M P s t) (v : Fin 8) (k id : Nat) : Works M P s (t.callTake v k id) := by
  unfold State.callTake
  dsimp only
  split
  · exact (h.callStart v k id).reportEnd v _ _
  · exact h.callStart v k id

/-! ### Inputs, foldback and mix -/

theorem takeTransition (h : Works M P s t) (i : Fin 64) (x : Transition) : Works M P s (t.takeTransition i x) := by
  unfold State.takeTransition
  split
  · exact (h.onInput i _).post _
  · exact h
theorem takeTransitions (h : Works M P s t) : Works M P s t.takeTransitions := h.foldl (fun v i => (refl v).takeTransition i _) _
theorem selectInput (h : Works M P s t) (i c : U8) : Works M P s (selectInput i c t).2 := by
  unfold Machine.selectInput
  dsimp only
  (repeat' split) <;> exact h.same rfl rfl rfl
theorem applyTalks (h : Works M P s t) : Works M P s t.applyTalks := by
  have run : Works M P s (t.msg.talks.foldl (fun s x => s.onTalk x.1 fun g => { g with latch := x.2 }) t) :=
    h.foldl (fun v (x : Fin 4 × Bool) => (refl v).onTalk x.1 _) _
  exact run.same rfl rfl rfl
theorem talkMessage (h : Works M P s t) (g c : U8) : Works M P s (talkMessage g c t).2 := by
  unfold Machine.talkMessage
  split <;> exact h.same rfl rfl rfl
theorem meterInputs (h : Works M P s t) : Works M P s t.meterInputs := by
  unfold State.meterInputs
  exact (h.onInputs _).postAll _
theorem meterBuses (h : Works M P s t) : Works M P s t.meterBuses := by
  unfold State.meterBuses
  exact (h.onMix _ rfl rfl rfl).postAll _

/-! ### Relay -/

theorem onCall (h : Works M P s t) (id : Nat) (f : Call → Call) : Works M P s (t.onCall id f) := h.onRelay _
theorem freeZones (h : Works M P s t) (id : Nat) : Works M P s (t.freeZones id) := h.onRelay _
theorem tailZones (h : Works M P s t) (zs : BitVec 16) (v : Fin 8) : Works M P s (t.tailZones zs v) := h.onRelay _
theorem dropTails (h : Works M P s t) (v : Fin 8) : Works M P s (t.dropTails v) := h.onRelay _
theorem endCall (h : Works M P s t) (c : Call) (e : CallEnd) : Works M P s (t.endCall c e) := (h.onRelay _).post _
theorem reserveZones (h : Works M P s t) (id : Nat) : Works M P s (t.reserveZones id) := h.onCall _ _
theorem backToWaiting (h : Works M P s t) (id : Nat) : Works M P s (t.backToWaiting id) := (h.onCall _ _).reserveZones _
theorem acceptCall (h : Works M P s t) (c : CallSpec) : Works M P s (t.acceptCall c) := h.onRelay _
theorem placeCallMessage (h : Works M P s t) (o : Origin) (c : RawCall) : Works M P s (placeCallMessage o c t).2 := by
  unfold Machine.placeCallMessage
  dsimp only
  split
  · cases o with
    | addressed _ => exact h
    | group _ => exact h.post _
    | broadcast => exact h.post _
  · split
    · cases o with
      | addressed _ => exact h
      | group _ => exact h.post _
      | broadcast => exact h.post _
    · exact h.acceptCall _
theorem endOnAir (h : Works M P s t) (c : Call) : Works M P s (t.endOnAir c) := by
  unfold State.endOnAir
  dsimp only
  split
  · exact (h.freeZones _).onCall _ _
  · exact (h.freeZones _).endCall _ _
theorem takeReport (h : Works M P s t) (e : EndReport) : Works M P s (t.takeReport e) := by
  unfold State.takeReport
  split
  · split
    · exact h.endOnAir _
    · exact h
  · exact h
theorem countOnAir (h : Works M P s t) (id : Nat) : Works M P s (t.countOnAir id) := by
  unfold State.countOnAir
  split
  · split
    · split
      · dsimp only
        split
        · exact ((h.onCall id _).post _).endOnAir _
        · exact h.onCall id _
      · exact h
    · exact h
  · exact h
theorem relayEnds (h : Works M P s t) : Works M P s t.relayEnds := by
  have ended := (h.foldl (fun v e => (refl v).takeReport e) t.relay.reports).onRelay fun r => { r with reports := [] }
  exact ended.foldl (fun v id => (refl v).countOnAir id) _
theorem callEnd (h : Works M P s t) (id : Nat) : Works M P s (callEnd id t).2 := by
  unfold Machine.callEnd
  split
  · exact h
  · split
    · exact h
    · exact h
    · exact h.endCall _ _
    · exact h.endOnAir _
theorem callCancel (h : Works M P s t) (id : Nat) : Works M P s (callCancel id t).2 := by
  unfold Machine.callCancel
  split
  · exact h
  · dsimp only
    split
    · exact (((h.callStop _).tailZones _ _).freeZones _).endCall _ _
    · exact (h.freeZones _).endCall _ _
theorem takeRelayRequest (h : Works M P s t) (r : RelayRequest) : Works M P s (t.takeRelayRequest r) := by
  unfold State.takeRelayRequest
  dsimp only
  split
  · exact (h.callCancel _).answer _ _
  · exact (h.callEnd _).answer _ _
theorem relayRequests (h : Works M P s t) : Works M P s t.relayRequests :=
  (h.onRelay fun r => { r with requests := [] }).foldl (fun v r => (refl v).takeRelayRequest r) _
theorem takePress (h : Works M P s t) (z : Fin 16) : Works M P s (t.takePress z) := by
  unfold State.takePress
  split
  · exact h
  · dsimp only
    split
    · exact (h.onCall _ _).endCall _ _
    · exact h.onCall _ _
theorem readAckLine (h : Works M P s t) (z : Fin 16) : Works M P s (t.readAckLine z) := by
  unfold State.readAckLine
  split
  · split
    · exact h
    · exact (h.onZone z _).takePress z
  · exact h.onZone z _
theorem relayPresses (h : Works M P s t) : Works M P s t.relayPresses := h.foldl (fun v z => (refl v).readAckLine z) _
theorem countAck (h : Works M P s t) (id : Nat) : Works M P s (t.countAck id) := by
  unfold State.countAck
  split
  · split
    · dsimp only
      split
      · split
        · exact ((h.onCall id _).onCall _ _).backToWaiting _
        · exact (h.onCall id _).endCall _ _
      · exact h.onCall id _
    · exact h
  · exact h
theorem relayAcks (h : Works M P s t) : Works M P s t.relayAcks := h.foldl (fun v id => (refl v).countAck id) _
theorem goOnAir (h : Works M P s t) (id : Nat) (b : Bool) (v : Option (Fin 8)) : Works M P s (t.goOnAir id b v) := by
  unfold State.goOnAir
  split
  · exact h
  · exact (h.onCall id _).onRelay _
theorem cutCall (h : Works M P s t) (n : Nat) (zs : BitVec 16) (b : Bool) (c : Call) : Works M P s (t.cutCall n zs b c) := by
  unfold State.cutCall
  split
  · exact (h.freeZones _).endCall _ _
  · dsimp only
    split
    · split
      · exact ((h.freeZones _).backToWaiting _).post _
      · exact ((((h.callStop _).tailZones _ _).freeZones _).backToWaiting _).post _
    · exact ((h.freeZones _).backToWaiting _).post _
theorem stopSpeaks (h : Works M P s t) (c : Call) (v : Option (Fin 8)) : Works M P s (t.stopSpeaks c v) := by
  unfold State.stopSpeaks
  exact (((h.foldl (fun w d => (refl w).cutCall _ _ _ d) _).goOnAir _ _ _).hold _).post _
theorem giveVoice (h : Works M P s t) (c : Call) (v : Fin 8) (k : Nat) (b : Bool) : Works M P s (t.giveVoice c v k b) := by
  have given : Works M P s (if b then (t.callTake v k c.id).dropTails v else t.callStart v k c.id) := by
    split
    · exact (h.callTake v k c.id).dropTails v
    · exact h.callStart v k c.id
  unfold State.giveVoice
  dsimp only
  split
  · exact given.cutCall _ _ _ _
  · exact given
theorem showStop (h : Works M P s t) (c : Call) : Works M P s (t.showStop c) := by
  unfold State.showStop
  split
  · exact h.stopSpeaks c _
  · split
    · exact h.endCall c _
    · exact (h.giveVoice c _ _ _).stopSpeaks c _
    · exact (h.giveVoice c _ _ _).stopSpeaks c _
theorem relayStops (h : Works M P s t) : Works M P s t.relayStops := by
  unfold State.relayStops
  split
  · exact h.showStop _
  · exact h
theorem passCall (h : Works M P s t) (id : Nat) : Works M P s (t.passCall id) := by
  unfold State.passCall
  split
  · exact h
  · split
    · dsimp only
      split
      · exact (h.onCall id _).reserveZones id
      · exact h.onCall id _
    · exact h
theorem considerCall (h : Works M P s t) (id : Nat) : Works M P s (t.considerCall id) := by
  unfold State.considerCall
  split
  · exact h
  · split
    · exact h
    · exact (h.goOnAir _ _ _).foldl (fun v i => (refl v).passCall i) _
theorem relaySchedule (h : Works M P s t) : Works M P s t.relaySchedule := h.foldl (fun v id => (refl v).considerCall id) _
theorem countWait (h : Works M P s t) (id : Nat) : Works M P s (t.countWait id) := by
  unfold State.countWait
  split
  · split
    · dsimp only
      split
      · exact (h.onCall id _).endCall _ _
      · exact h.onCall id _
    · exact h
  · exact h
theorem relayWaits (h : Works M P s t) : Works M P s t.relayWaits := h.foldl (fun v id => (refl v).countWait id) _
theorem relayDucks (h : Works M P s t) : Works M P s t.relayDucks := h.onRelay _
theorem speakCall (h : Works M P s t) (id : Nat) : Works M P s (t.speakCall id) := by
  unfold State.speakCall
  split
  · exact h
  · split
    · split
      · exact h.onCall _ _
      · split
        · exact (h.onCall _ _).callStart _ _ _
        · exact ((h.freeZones _).backToWaiting _).post _
    · exact h
theorem relaySpeak (h : Works M P s t) : Works M P s t.relaySpeak := h.foldl (fun v id => (refl v).speakCall id) _
theorem relayLamps (h : Works M P s t) : Works M P s t.relayLamps := by
  unfold State.relayLamps
  exact (h.onRelay _).showPass
theorem refuseRelayRequests (h : Works M P s t) : Works M P s t.refuseRelayRequests :=
  h.foldl (fun v (r : RelayRequest) => (refl v).answer r.place _) _

end Works

end Sys2Proof.Machine

/-! SUPPORT. What the work of a boundary leaves alone, continued: the cue engine, the clip player, the tables, the messages, and the
items of a boundary. -/

namespace Sys2Proof.Machine

open Sys2Proof

namespace Works

variable {M P : Prop} {s t u : State}

/-! ### Cue engine -/

theorem cueStore (h : Works M P s t) (raw : RawCue) : Works M P s (cueStore raw t).2 := by
  unfold Machine.cueStore
  split
  · exact h
  · dsimp only
    split
    · exact h
    · dsimp only
      exact h.onCue _
theorem cueRemove (h : Works M P s t) (n : U32) : Works M P s (cueRemove n t).2 := by
  unfold Machine.cueRemove
  split
  · exact h
  · dsimp only
    exact h.onCue _
theorem cueRead (h : Works M P s t) (n : U32) (m : U8) : Works M P s (cueRead n m t).2 := by
  unfold Machine.cueRead
  split
  · exact h
  · split <;> exact h
theorem unstopTarget (h : Works M P s t) (x : Target) : Works M P s (t.unstopTarget x) := by
  cases x
  case voiceGain v => exact h.onVoice v _
  all_goals exact h
theorem move (h : Works M P s t) (cue n : Nat) (x : Target) (c : LevelCode) (d : Nat) (sh : Shape) :
    Works M P s (t.move cue n x c d sh) := by
  unfold State.move
  split
  · exact ((h.dropFade x).unstopTarget x).putCode x c
  · split
    · exact (h.putFade _).unstopTarget x
    · exact (h.post _).putCode x c
theorem perform (h : Works M P s t) {cue n : Nat} {a : Action} (hp : t.perform cue n a = .ok u) : Works M P s u := by
  cases a <;> simp only [State.perform] at hp
  case move => split at hp <;> cases hp; exact h.move _ _ _ _ _ _
  case play => (repeat' split at hp) <;> cases hp; exact h.playVoice _ _ _
  case stop => split at hp <;> cases hp; exact h.stopVoice _ _ _ _
  case route => split at hp <;> cases hp; exact h.onInput _ _
  case call => split at hp <;> cases hp; exact h.acceptCall _
theorem performAll (h : Works M P s t) (cue n k : Nat) (as : List Action) :
    Works M P s (State.performAll cue n k as t).1 := by
  induction as generalizing k t with
  | nil => exact h
  | cons a as ih =>
    unfold State.performAll
    split
    · next hp => exact ih (h.perform hp) _
    · exact ih (h.post _) _
theorem fire (h : Works M P s t) (c : Cue) (a : Arrival) : Works M P s (t.fire c a) := by
  have done := (h.onCue fun e => { e with follow := none, firings := t.cue.firings + 1 }).performAll c.number
    (t.cue.firings + 1) 1 c.actions
  unfold State.fire
  exact (done.onCue _).post _
theorem refuseGo (h : Works M P s t) (a : Arrival) (r : GoReason) : Works M P s (t.refuseGo a r) := by
  unfold State.refuseGo
  split
  · exact h
  · exact h.post _
theorem guardedFire (h : Works M P s t) (a : Arrival) (c : Cue) : Works M P s (t.guardedFire a c).2 := by
  unfold State.guardedFire
  split
  · exact h.refuseGo _ _
  · exact h.fire c a
theorem takeGo (h : Works M P s t) (a : Arrival) (n : Option Nat) : Works M P s (t.takeGo a n).2 := by
  unfold State.takeGo
  split
  · exact h.refuseGo _ _
  · split
    · exact h.refuseGo _ _
    · split
      · split
        · exact h.post _
        · exact h.guardedFire _ _
      · split
        · exact h.refuseGo _ _
        · exact h.guardedFire _ _
theorem takeGoLine (h : Works M P s t) : Works M P s t.takeGoLine := by
  unfold State.takeGoLine
  split
  · exact (h.onPorts _ rfl rfl).takeGo _ _
  · exact h
theorem takeStandby (h : Works M P s t) (n : U32) : Works M P s (takeStandby n t).2 := by
  unfold Machine.takeStandby
  split
  · exact h
  · split
    · exact h
    · dsimp only
      exact h.onCue _
theorem takeResume (h : Works M P s t) : Works M P s (takeResume t).2 := by
  unfold Machine.takeResume
  split
  · exact h
  · split
    · exact ((h.onCue fun e => { e with held := false }).onClip _).post _
    · exact h
theorem expireFollow (h : Works M P s t) : Works M P s t.expireFollow := by
  unfold State.expireFollow
  dsimp only
  split
  · exact (h.onCue _).fire _ _
  · exact (h.onCue _).post _
theorem stepFollow (h : Works M P s t) : Works M P s t.stepFollow := by
  unfold State.stepFollow
  split
  · split
    · split
      · exact h.expireFollow
      · exact h.onCue _
    · exact h
  · exact h
theorem startTiming (h : Works M P s t) : Works M P s t.startTiming := by
  unfold State.startTiming
  split
  · split
    · exact h.onCue _
    · exact h
  · exact h
theorem completeFade (h : Works M P s t) (f : Fade) : Works M P s (t.completeFade f) := by
  unfold State.completeFade
  dsimp only
  split
  · split
    · exact ((h.dropFade _).putCode _ _).endVoice _ _
    · exact (h.dropFade _).putCode _ _
  · exact (h.dropFade _).putCode _ _
theorem completeTarget (h : Works M P s t) (x : Target) : Works M P s (t.completeTarget x) := by
  unfold State.completeTarget
  split
  · split
    · exact h.completeFade _
    · exact h
  · exact h
theorem completeStops (h : Works M P s t) : Works M P s t.completeStops :=
  h.foldl (fun w v => (refl w).completeTarget (.voiceGain v)) _
theorem completeFades (h : Works M P s t) : Works M P s t.completeFades := h.foldl (fun w x => (refl w).completeTarget x) _
theorem resetCues (h : Works M P s t) : Works M P s t.resetCues :=
  (h.foldl (fun w (f : Fade) => (refl w).putCode f.target f.lastCode) t.cue.fades).onCue _

/-! ### Clip player -/

theorem startCapture (h : Works M P s t) (c : U8) (r : RawSource) (n : U32) : Works M P s (startCapture c r n t).2 := by
  unfold Machine.startCapture
  split
  · dsimp only
    split
    · exact h
    · split
      · exact h
      · split
        · exact h
        · dsimp only
          exact h.onClip _
  · exact h
theorem abortCapture (h : Works M P s t) (c : Capture) (r : AbortReason) : Works M P s (t.abortCapture c r) := (h.onClip _).post _
theorem abortCaptureMessage (h : Works M P s t) (c : U8) : Works M P s (abortCaptureMessage c t).2 := by
  unfold Machine.abortCaptureMessage
  split
  · exact h
  · split
    · split
      · exact h.abortCapture _ _
      · exact h
    · exact h
theorem removeClip (h : Works M P s t) (c : U8) : Works M P s (removeClip c t).2 := by
  unfold Machine.removeClip
  split
  · exact h
  · split
    · exact h
    · split
      · exact h
      · dsimp only
        exact h.onClip _
theorem completeCapture (h : Works M P s t) (c : Capture) : Works M P s (t.completeCapture c) := (h.onClip _).post _
theorem storeFrame (h : Works M P s t) (c : Capture) : Works M P s (t.storeFrame c) := by
  unfold State.storeFrame
  exact h.onClip _
theorem stepCapture (h : Works M P s t) : Works M P s t.stepCapture := by
  unfold State.stepCapture
  split
  · exact h
  · split
    · exact h.completeCapture _
    · split
      · exact h.storeFrame _
      · exact h.abortCapture _ _
theorem lossToCapture (h : Works M P s t) : Works M P s t.lossToCapture := by
  unfold State.lossToCapture
  split
  · split
    · exact h.abortCapture _ _
    · exact h
  · exact h
theorem voicePlay (h : Works M P s t) (v c : U8) (g : U16) (l : U8) : Works M P s (voicePlay v c g l t).2 := by
  unfold Machine.voicePlay
  split
  · split
    · exact h
    · split
      · exact h
      · split
        · exact h
        · exact h.playVoice _ _ _
  · exact h
theorem voiceStop (h : Works M P s t) (v : U8) (d : U32) : Works M P s (voiceStop v d t).2 := by
  unfold Machine.voiceStop
  split
  · split
    · exact h.stopVoice _ _ _ _
    · exact h
  · exact h
theorem endIfOver (h : Works M P s t) (v : Fin 8) : Works M P s (t.endIfOver v) := by
  unfold State.endIfOver
  dsimp only
  split
  · exact h.endVoice v _
  · exact h
theorem endPlaybacks (h : Works M P s t) : Works M P s t.endPlaybacks := h.foldl (fun w v => (refl w).endIfOver v) _
theorem takeReserve (h : Works M P s t) : Works M P s t.takeReserve := by
  unfold State.takeReserve
  split
  · exact h.onClip _
  · exact h
theorem pauseVoices (h : Works M P s t) : Works M P s t.pauseVoices := by
  unfold State.pauseVoices
  split
  · exact h.onClip _
  · exact h
theorem resetVoices (h : Works M P s t) : Works M P s t.resetVoices := by
  unfold State.resetVoices
  exact (h.onClip _).takeReserve

/-! ### Tables and the hold -/

theorem acceptEntries (h : Works M P s t) (taken : List TableEntry) (priors : List (List U8)) :
    Works M P s (acceptEntries taken priors t).2 := by
  unfold Machine.acceptEntries
  dsimp only
  split
  · exact h
  · split
    · split
      · exact h
      · exact h.same rfl rfl rfl
    · exact h.same rfl rfl rfl
theorem writeTable (h : Works M P s t) {α : Type} (n : Nat) (first : U8) (es : List α) (check : Fin n → α → Option TableEntry)
    (prior : State → Fin n → List U8) : Works M P s (writeTable n first es check prior t).2 := by
  unfold Machine.writeTable
  split
  · exact h
  · dsimp only
    split
    · exact h
    · exact h.acceptEntries _ _
theorem writeCrosspoint (h : Works M P s t) (w : RawWindow) (cs : List U16) : Works M P s (writeCrosspoint w cs t).2 := by
  unfold Machine.writeCrosspoint
  split
  · exact h
  · exact h.acceptEntries _ _
/-- An entry of the output map applies. -/
theorem applyOutput (h : Works False P s t) (o : Fin 40) (e : OutputEntry) : Works False P s (t.applyEntry (.output o e)) :=
  h.trans ⟨by simp only [State.blocks, State.applyEntry, State.onMix_mix, State.onMix_ports], False.elim, fun _ => .refl _⟩
/-- An entry of any other table applies. -/
theorem applyEntry (h : Works M P s t) (e : TableEntry) (ho : ∀ o x, e ≠ .output o x) : Works M P s (t.applyEntry e) := by
  cases e <;> simp only [State.applyEntry]
  case input => exact h.onInput _ _
  case crosspoint => exact (h.dropFade _).putCode _ _
  case bus => exact (h.dropFade _).onBus _ _
  case output o x => exact absurd rfl (ho o x)
  case zone => exact (h.dropFade _).onZone _ _
  case talk => exact h.onTalk _ _
  case voice => exact ((h.dropFade _).onVoice _ _).putCode _ _
  case node => exact h.same rfl rfl rfl
/-- A run of accepted entries applies. -/
theorem applyThose (h : Works M P s t) (sort : Accepted → Bool)
    (hs : ∀ a, sort a = true → ∀ v : State, Works M P v (v.applyAccepted a)) : Works M P s (t.applyThose sort) := by
  have run : ∀ (as : List Accepted), (∀ a ∈ as, sort a = true) → ∀ v, Works M P s v →
      Works M P s (as.foldl State.applyAccepted v) := by
    intro as
    induction as with
    | nil => exact fun _ v hv => hv
    | cons a as ih =>
      intro ha v hv
      exact ih (fun b hb => ha b (List.mem_cons_of_mem _ hb)) _ (hv.trans (hs a (ha a List.mem_cons_self) v))
  exact (run (t.msg.accepted.filter sort) (fun a ha => (List.mem_filter.mp ha).2) t h).same rfl rfl rfl
theorem applyNode (h : Works M P s t) : Works M P s t.applyNode := by
  refine h.applyThose _ fun a ha v => ?_
  cases a with
  | select => cases ha
  | write k e =>
    cases e
    case node e => exact (refl v).applyEntry (.node e) (by simp)
    all_goals cases ha
theorem applyVoiceWrites (h : Works M P s t) : Works M P s t.applyVoiceWrites := by
  refine h.applyThose _ fun a ha v => ?_
  cases a with
  | select => cases ha
  | write k e =>
    cases e
    case voice w c => exact (refl v).applyEntry (.voice w c) (by simp)
    all_goals cases ha
theorem applyWrites (h : Works False P s t) : Works False P s t.applyWrites := by
  refine h.applyThose _ fun a _ v => ?_
  cases a with
  | select => exact (refl v).onInput _ _
  | write k e =>
    by_cases ho : ∀ o x, e ≠ .output o x
    · exact (refl v).applyEntry e ho
    · push Not at ho
      obtain ⟨o, x, rfl⟩ := ho
      exact (refl v).applyOutput o x
theorem clearMeters (h : Works M P s t) (a n : Nat) : Works M P s (t.clearMeters a n) :=
  h.same (by simp only [State.blocks, State.clearMeters]) (by simp only [State.clearMeters]) (by simp only [State.clearMeters])
theorem readMeter (h : Works M P s t) (a n : U8) : Works M P s (readMeter a n t).2 := by
  unfold Machine.readMeter
  split
  · exact h
  · exact h.clearMeters _ _
theorem readTable (h : Works M P s t) (x : U8) (p : ReadPlace) : Works M P s (readTable x p t).2 := by
  unfold Machine.readTable
  split
  · split
    · split <;> exact h
    · exact h
  · split
    · exact h
    · split
      · exact h.readMeter _ _
      · split
        · exact h
        · split <;> exact h
theorem holdMessage (h : Works M P s t) (mode : U8) : Works M P s (holdMessage mode t).2 := by
  unfold Machine.holdMessage
  split
  · unfold holdOn
    split
    · exact h
    · exact h.same rfl rfl rfl
  · split
    · unfold holdApply
      split
      · exact h.same rfl rfl rfl
      · exact h
    · split
      · unfold holdDiscard
        split
        · exact h.same rfl rfl rfl
        · exact h
      · exact h
theorem ageHold (h : Works M P s t) : Works M P s t.ageHold := by
  unfold State.ageHold
  split
  · split
    · exact (h.same rfl rfl rfl : Works M P s (t.onMsg _)).post _
    · exact h.same rfl rfl rfl
  · exact h

/-! ### Messages

A message may take away what was posted (EVENT FETCH, FLAGS CLEAR, a warm RESET), and one that completes waits to be executed. -/

theorem heard (h : Works M False s t) (f : Msg → Msg) : Works M False s (t.onMsg f) := h.onMsg f False.elim
theorem fetchEvents (h : Works M False s t) (m : U8) : Works M False s (fetchEvents m t).2 := by
  unfold Machine.fetchEvents
  dsimp only
  exact h.heard _
theorem clearFlags (h : Works M False s t) (f : U64) : Works M False s (clearFlags f t).2 :=
  h.trans ⟨by simp only [State.blocks, Machine.clearFlags], fun _ => by simp only [Machine.clearFlags], False.elim⟩
theorem settleNow (h : Works M False s t) (o : Origin) (r : Request) : Works M False s (settleNow o r t).2 := by
  cases r
  case writeInput => exact h.writeTable _ _ _ _ _
  case writeCrosspoint => exact h.writeCrosspoint _ _
  case writeBus => exact h.writeTable _ _ _ _ _
  case writeOutput => exact h.writeTable _ _ _ _ _
  case writeZone => exact h.writeTable _ _ _ _ _
  case writeTalk => exact h.writeTable _ _ _ _ _
  case writeVoice => exact h.writeTable _ _ _ _ _
  case writeNode => exact h.writeTable _ _ _ _ _
  case read => exact h.readTable _ _
  case readMeter => exact h.readMeter _ _
  case hold => exact h.holdMessage _
  case cueStore => exact h.cueStore _
  case cueRemove => exact h.cueRemove _
  case cueRead => exact h.cueRead _ _
  case callPlace => exact h.placeCallMessage _ _
  case talk => exact h.talkMessage _ _
  case inputSelect => exact h.selectInput _ _
  case capture => exact h.startCapture _ _ _
  case captureAbort => exact h.abortCaptureMessage _
  case clipRemove => exact h.removeClip _
  case status part first count =>
    have : (Machine.settleNow o (.status part first count) t).2 = t := readStatus_state part first count t
    rwa [this]
  case eventFetch => exact h.fetchEvents _
  case flagsClear => exact h.clearFlags _
  all_goals exact h
theorem takeRequest (h : Works M P s t) (o : Origin) (r : Request) : Works M P s (takeRequest o r t).2 := by
  cases r
  case go => exact h.takeGo _ _
  case standby => exact h.takeStandby _
  case halt => exact h.hold _
  case resume => exact h.takeResume
  case voicePlay => exact h.voicePlay _ _ _ _
  case voiceStop => exact h.voiceStop _ _
  all_goals exact h
theorem takeWaiting (h : Works M P s t) (w : Waiting) : Works M P s (t.takeWaiting w) :=
  (h.takeRequest w.origin w.request).answer _ _
theorem takeRequests (h : Works M P s t) : Works M P s t.takeRequests :=
  (h.same rfl rfl rfl : Works M P s (t.onMsg fun m => { m with waiting := [] })).foldl (fun v w => (refl v).takeWaiting w) _
theorem handOver (h : Works M False s t) (o : Origin) (place : Option Nat) (r : Request) :
    Works M False s (t.handOver o place r) := by
  unfold State.handOver
  split
  · exact (h.settleNow o r).answer _ _
  · exact h.heard _
  · exact h.heard _
  · exact h.onRelay _
theorem complete (h : Works M False s t) (o : Origin) (b : List U8) : Works M False s (t.complete o b) := by
  have taken := h.takePlace o (b.headD 0)
  unfold State.complete
  split
  · next e => rwa [e] at taken
  · next e => rw [e] at taken; exact taken.heard _
theorem executeCompleted (h : Works M False s t) : Works M False s t.executeCompleted := by
  unfold State.executeCompleted
  split
  · exact h.shown
  · have cleared : Works M False s (t.show.onMsg fun m => { m with completed := none }) := h.shown.heard _
    dsimp only
    split
    · exact cleared.answer _ _
    · split
      · exact cleared
      · exact cleared.handOver _ _ _
/-- With no message completed, none is executed. -/
theorem executeNone (h : Works M P s t) (hc : t.msg.completed = none) : Works M P s t.executeCompleted := by
  unfold State.executeCompleted
  rw [hc]
  exact h.shown

/-! ### Resets -/

theorem warmReset (h : Works M False s t) : Works M False s t.warmReset := by
  have cleared : Works M False s t.clearMetersAndFlags :=
    h.trans ⟨by simp only [State.blocks, State.clearMetersAndFlags], fun _ => by simp only [State.clearMetersAndFlags], False.elim⟩
  exact cleared.heard _
theorem takeWarmReset (h : Works M False s t) (w : Waiting) : Works M False s (t.takeWarmReset w) := by
  unfold State.takeWarmReset State.answerReset
  split
  · exact h.warmReset.heard _
  · exact h.warmReset
theorem warmResets (h : Works M False s t) : Works M False s t.warmResets :=
  (h.heard fun m => { m with resets := m.resets.filter fun w => !w.isWarm }).foldl (fun v w => (refl v).takeWarmReset w) _
theorem resetCalls (h : Works M P s t) : Works M P s t.resetCalls := (h.refuseRelayRequests.onRelay _).onDue _
theorem showReset (h : Works M P s t) : Works M P s t.showReset := (h.resetCues.resetVoices.resetCalls.showPass).post _
theorem takeShowReset (h : Works M P s t) (w : Waiting) : Works M P s (t.takeShowReset w) := h.showReset.answer _ _
theorem showResets (h : Works M P s t) : Works M P s t.showResets := by
  refine foldl (h.onMsg _ fun _ => ?_) (fun v w => (refl v).takeShowReset w) _
  exact ⟨fun _ _ h => h, id, fun ⟨hc, hr⟩ => ⟨hc, fun w hw => hr w (List.mem_filter.mp hw).1⟩⟩

/-! ### The assembler, the answer cell and the link -/

theorem discardPartial (h : Works M P s t) (r : FragmentReason) : Works M P s (t.discardPartial r) := by
  unfold State.discardPartial
  split
  · exact (h.same rfl rfl rfl : Works M P s (t.onMsg fun m => { m with assembler := none })).post _
  · exact h
theorem advance (h : Works M False s t) (c : Cell) (p : Partial) : Works M False s (t.advance c p) := by
  unfold State.advance
  split
  · exact (h.heard _).complete _ _
  · exact h.heard _
theorem overlong (h : Works M False s t) (p : Partial) : Works M False s (t.overlong p) := by
  unfold State.overlong
  split
  · next tag _ =>
    have taken := (h.heard fun m => { m with assembler := none }).takePlace (.addressed tag) (p.body.headD 0)
    split
    · next e => rw [e] at taken; exact taken.answer _ _
    · next e => rwa [e] at taken
  · exact h.discardPartial _
theorem continueMessage (h : Works M False s t) (c : Cell) (p : Partial) : Works M False s (t.continueMessage c p) := by
  unfold State.continueMessage
  split
  · exact h.discardPartial _
  · split
    · exact h.overlong _
    · exact h.advance _ _
theorem assemble (h : Works M False s t) (c : Cell) : Works M False s (t.assemble c) := by
  unfold State.assemble
  split
  · split
    · exact h.discardPartial _
    · exact h.post _
  · split
    · exact (h.discardPartial _).advance _ _
    · split
      · exact h
      · exact h.continueMessage _ _
theorem takeCell (h : Works M False s t) : Works M False s t.takeCell := by
  unfold State.takeCell
  split
  · split
    · exact h.assemble _
    · exact h
  · exact h
theorem placeAnswer (h : Works M P s t) (offered : Bool) (c : Cell) : Works M P s (t.placeAnswer offered c).2 := by
  unfold State.placeAnswer
  split
  · split
    · exact h.same rfl rfl rfl
    · exact h
  · exact h
theorem forward (h : Works M P s t) : Works M P s t.forward := by
  unfold State.forward
  split
  · exact (h.placeAnswer _ _).onLink _
  · exact h
theorem postArrival (h : Works M P s t) : Works M P s t.postArrival := by
  have restored : Works M P s
      (if t.link.restoring then t.post (linkRestoredPost t.link.upstream (decide (t.link.locks ≤ 1))) else t) := by
    split
    · exact h.post _
    · exact h
  unfold State.postArrival
  dsimp only
  split
  · exact restored.postOnce _
  · exact restored

/-! ### The items of a boundary -/

theorem runOnce (h : Works M P s t) (it : Item) {work : State → State} (hw : ∀ v, Works M P v (work v)) :
    Works M P s (t.runOnce it work) := by
  unfold State.runOnce
  split
  · exact (h.onDue _).trans (hw _)
  · exact h
/-- The meters that come together: every late post of theirs has come when they have. -/
theorem takeMeters (h : Works M P s t) : Works M P s t.takeMeters := by
  have meters (v : State) : Works M P v ((v.runOnce .inputMeters State.meterInputs).runOnce .busMeters State.meterBuses) :=
    ((refl v).runOnce .inputMeters fun w => (refl w).meterInputs).runOnce .busMeters fun w => (refl w).meterBuses
  refine h.trans ?_
  have run := meters (t.onMsg fun m => { m with late := m.frameLate, frameLate := [] })
  refine ⟨run.blocks, run.outputs, fun p => ⟨fun x hx hm => ?_, fun _ => arrive_prompt _, fun hc => arrive_calm ?_⟩⟩
  · exact .inl (arrive_heard hx ((run.adds p).told x hx hm))
  · exact (run.adds p).calm hc
theorem takeLine_kept (p : Ports) (l : LineId) : (p.takeLine l).clocks = p.clocks ∧ (p.takeLine l).localIn = p.localIn := by
  cases l <;> exact ⟨rfl, rfl⟩
theorem takeLines_kept (ls : List LineId) (p : Ports) :
    (ls.foldl Ports.takeLine p).clocks = p.clocks ∧ (ls.foldl Ports.takeLine p).localIn = p.localIn := by
  induction ls generalizing p with
  | nil => exact ⟨rfl, rfl⟩
  | cons l ls ih => exact ⟨(ih _).1.trans (takeLine_kept p l).1, (ih _).2.trans (takeLine_kept p l).2⟩
theorem takeLevels (h : Works M P s t) : Works M P s t.takeLevels :=
  h.onPorts _ (takeLines_kept allLines t.ports).1 (takeLines_kept allLines t.ports).2

theorem driveOutputs (h : Works M P s t) : Works M P s t.driveOutputs := by
  unfold State.driveOutputs
  refine h.onPorts _ ?_ ?_ <;> rfl
theorem countInputs (h : Works M P s t) : Works M P s t.countInputs := h.onInputs _
theorem carryInputs (h : Works M P s t) : Works M P s t.carryInputs := h.onInputs _
theorem formKeys (h : Works M P s t) : Works M P s t.formKeys := by
  unfold State.formKeys
  refine h.onMix _ ?_ ?_ ?_ <;> rfl
theorem setGates (h : Works M P s t) : Works M P s t.setGates := h.onInputs _
theorem moveBuses (h : Works M P s t) : Works M P s t.moveBuses := by
  unfold State.moveBuses
  refine h.onMix _ ?_ ?_ ?_ <;> rfl

/-- An item other than the writes, the warm RESETs, the request cell and the execution of a message. -/
theorem plainItem (h : Works M P s t) (it : Item) (h1 : it ≠ .writes) (h2 : it ≠ .warmReset) (h3 : it ≠ .cell)
    (h4 : it ≠ .execute) : Works M P s (runItem it t) := by
  cases it
  case writes => exact absurd rfl h1
  case warmReset => exact absurd rfl h2
  case cell => exact absurd rfl h3
  case execute => exact absurd rfl h4
  case levels => exact h.takeLevels
  case ends => exact h.endPlaybacks
  case node => exact h.applyNode
  case linkEvents => exact h.postArrival
  case lossEvent => exact h.post _
  case stopFades => exact h.completeStops
  case reserve => exact h.takeReserve
  case completions => exact h.completeFades
  case voiceWrites => exact h.applyVoiceWrites
  case talks => exact h.applyTalks
  case showReset => exact h.showResets
  case requests => exact h.takeRequests
  case goLine => exact h.takeGoLine
  case follow => exact h.stepFollow
  case capture => exact h.stepCapture
  case lossCapture => exact h.lossToCapture
  case lossPartial => exact h.discardPartial _
  case hold => exact h.ageHold
  case relayEnds => exact h.relayEnds
  case relayRequests => exact h.relayRequests
  case relayPresses => exact h.relayPresses
  case relayAcks => exact h.relayAcks
  case relayStops => exact h.relayStops
  case relaySchedule => exact h.relaySchedule
  case relayWaits => exact h.relayWaits
  case relayDucks => exact h.relayDucks
  case relaySpeak => exact h.relaySpeak
  case relayLamps => exact h.relayLamps
  case count => exact h.countInputs
  case transitions => exact h.takeTransitions
  case carry => exact h.carryInputs
  case followTiming => exact h.startTiming
  case keys => exact h.formKeys.setGates.moveBuses
  case transport => exact h.pauseVoices
  case outputs => exact h.driveOutputs
  case forward => exact h.forward
  case latePosts => exact h.latePosts
  case meters => exact h.takeMeters
  case inputMeters => exact h.meterInputs
  case busMeters => exact h.meterBuses

/-- An item other than the writes, whatever message it takes. -/
theorem unmappedItem (h : Works M False s t) (it : Item) (h1 : it ≠ .writes) : Works M False s (runItem it t) := by
  by_cases h2 : it = .warmReset
  · subst h2; exact h.warmResets
  by_cases h3 : it = .cell
  · subst h3; exact h.takeCell
  by_cases h4 : it = .execute
  · subst h4; exact h.executeCompleted
  exact h.plainItem it h1 h2 h3 h4

/-- Any item. -/
theorem item (h : Works False False s t) (it : Item) : Works False False s (runItem it t) := by
  by_cases h1 : it = .writes
  · subst h1; exact h.applyWrites
  · exact h.unmappedItem it h1

/-- An item of a calm message controller, the request cell apart. -/
theorem calmItem (h : Works False True s t) (it : Item) (hc : t.msg.Calm) (hi : it ≠ .cell) : Works False True s (runItem it t) := by
  by_cases h1 : it = .writes
  · subst h1; exact h.applyWrites
  by_cases h2 : it = .warmReset
  · subst h2; rw [warmResets_none t hc.2]; exact h
  by_cases h4 : it = .execute
  · subst h4; exact h.executeNone hc.1
  exact h.plainItem it h1 h2 hi h4

theorem runDue (h : Works False False s t) (it : Item) : Works False False s (t.runDue it) := h.runOnce it fun v => (refl v).item it
theorem ready (h : Works False False s t) (it : Item) : Works False False s (t.ready it) := h.foldl (fun v it => (refl v).runDue it) _
theorem settle (h : Works False False s t) : Works False False s t.settle := h.foldl (fun v it => (refl v).runDue it) _
theorem takeItem (h : Works False False s t) (it : Item) : Works False False s (t.takeItem it) := by
  unfold State.takeItem
  split
  · exact (h.ready it).runDue it
  · exact h
theorem work (h : Works False False s t) (env : Env) : Works False False s (t.work env) := by
  have taken := h.foldl (fun v it => (refl v).takeItem it) env.order
  unfold State.work
  dsimp only
  split
  · exact taken.settle
  · exact taken

end Works

end Sys2Proof.Machine

/-! SUPPORT. A whole boundary: what its opening gives the work, and what holds through the work. -/

namespace Sys2Proof.Machine

open Sys2Proof

/-! ### The link interface apart from what it sends -/

/-- The link interface but for the frame it has sent. -/
def State.station (s : State) : Link := { s.link with sent := none }

theorem station_iff (s t : State) : s.station = t.station ↔ { s.link with sent := t.link.sent } = t.link := by
  constructor
  · exact fun h => congrArg (fun l : Link => { l with sent := t.link.sent }) h
  · exact fun h => congrArg (fun l : Link => { l with sent := none }) h

theorem runItem_station (it : Item) (s : State) : (runItem it s).station = s.station := by
  by_cases h : it = .forward
  · subst h; exact (station_iff _ _).mpr (forward_frame s).2.2
  · unfold State.station; rw [runItem_link it s h]

/-! ### Items one after the other -/

/-- An item that is due runs, and is due no more. -/
theorem runDue_of_due {s : State} {it : Item} (h : it ∈ s.due) : s.runDue it = runItem it (s.without it) := by
  simp [State.runDue, State.runOnce, State.isDue, h, State.without]

/-- An item that is not due does nothing. -/
theorem runDue_of_not_due {s : State} {it : Item} (h : it ∉ s.due) : s.runDue it = s := by
  simp [State.runDue, State.runOnce, State.isDue, h]

theorem runDue_station (s : State) (it : Item) : (s.runDue it).station = s.station := by
  by_cases h : it ∈ s.due
  · rw [runDue_of_due h, runItem_station]; rfl
  · rw [runDue_of_not_due h]

/-- What each item keeps, when it is due, holds of every run of items. -/
theorem foldl_runDue_keeps {p : State → Prop} (h : ∀ v it, p v → it ∈ v.due → p (runItem it (v.without it)))
    (its : List Item) {s : State} (hs : p s) : p (its.foldl State.runDue s) := by
  induction its generalizing s with
  | nil => exact hs
  | cons it its ih =>
    refine ih ?_
    by_cases hd : it ∈ s.due
    · rw [runDue_of_due hd]; exact h s it hs hd
    · rwa [runDue_of_not_due hd]

/-- What each item keeps, when it is due, holds of a boundary's work, whatever its order. -/
theorem work_keeps {p : State → Prop} (h : ∀ v it, p v → it ∈ v.due → p (runItem it (v.without it))) (env : Env) {s : State}
    (hs : p s) : p (s.work env) := by
  have taken : ∀ (its : List Item) (v : State), p v → p (its.foldl State.takeItem v) := by
    intro its
    induction its with
    | nil => exact fun v hv => hv
    | cons it its ih =>
      refine fun v hv => ih _ ?_
      unfold State.takeItem
      split
      · exact foldl_runDue_keeps h [it] (foldl_runDue_keeps h _ hv)
      · exact hv
  unfold State.work
  dsimp only
  split
  · exact foldl_runDue_keeps h _ (taken _ _ hs)
  · exact taken _ _ hs

theorem work_station (s : State) (env : Env) : (s.work env).station = s.station :=
  work_keeps (p := fun v => v.station = s.station) (fun v it hv _ => (runItem_station it (v.without it)).trans hv) env rfl

/-- A boundary that forwards no frame leaves the link interface alone. -/
theorem work_link {s : State} (h : .forward ∉ s.due) (env : Env) : (s.work env).link = s.link := by
  refine (work_keeps (p := fun v => v.link = s.link ∧ .forward ∉ v.due) (fun v it hv hd => ?_) env ⟨rfl, h⟩).1
  refine ⟨(runItem_link it _ ?_).trans hv.1, fun hf => hv.2 (List.mem_filter.mp (runItem_due it _ _ hf)).1⟩
  rintro rfl
  exact hv.2 hd

/-- A boundary whose work is taken whole leaves at most the meters of its frame due. -/
theorem work_between {s : State} {env : Env} (hs : s.ports.standsStill = false) (hr : env.rest = true) : (s.work env).between := by
  refine ⟨((still_iff _ _).mp (work_still s env)).2.2.2.trans hs, ?_⟩
  unfold State.work
  rw [hr]
  exact fun it hit => settle_due _ it hit

/-! ### The end of the frame before -/

theorem meter_link {it : Item} (h : isMeter it = true) (s : State) : (s.runDue it).link = s.link := by
  by_cases hd : it ∈ s.due
  · rw [runDue_of_due hd, runItem_link it _ (by rintro rfl; cases h)]; rfl
  · rw [runDue_of_not_due hd]

theorem closeFrame_kept (s : State) : s.closeFrame.link = s.link ∧ s.closeFrame.boundaries = s.boundaries
    ∧ s.closeFrame.msg = s.msg ∧ s.closeFrame.due = s.due := by
  unfold State.closeFrame
  exact ⟨rfl, rfl, rfl, rfl⟩

/-- The end of a frame leaves the link interface and the count of boundaries alone. -/
theorem endFrame_kept (s : State) : s.endFrame.link = s.link ∧ s.endFrame.boundaries = s.boundaries := by
  unfold State.endFrame
  split
  · obtain ⟨c1, c2, -⟩ := closeFrame_kept ((s.due.filter isMeter).foldl State.runDue s)
    refine ⟨c1.trans ?_, c2.trans ?_⟩
    · have run : ∀ (its : List Item) (v : State), (∀ it ∈ its, isMeter it = true) →
          (its.foldl State.runDue v).link = v.link := by
        intro its
        induction its with
        | nil => exact fun _ _ => rfl
        | cons it its ih =>
          exact fun v h => (ih _ fun x hx => h x (List.mem_cons_of_mem _ hx)).trans (meter_link (h it List.mem_cons_self) v)
      exact run _ _ fun it h => (List.mem_filter.mp h).2
    · exact ((still_iff _ _).mp (foldl_keeps State.still _ runDue_still _ s)).2.1
  · exact ⟨rfl, rfl⟩

/-- Before a boundary: the link interface but for what is sent, the count of boundaries, and the clocks are as they were. -/
theorem finish_kept (s : State) : s.finish.station = s.station ∧ s.finish.boundaries = s.boundaries
    ∧ s.finish.ports.standsStill = s.ports.standsStill ∧ s.finish.ports.clocks = s.ports.clocks := by
  obtain ⟨e1, e2⟩ := endFrame_kept s.settle
  obtain ⟨-, h2, -, h4⟩ := (still_iff _ _).mp (settle_still s)
  have hports : s.finish.ports = s.settle.ports := endFrame_ports s.settle
  refine ⟨?_, e2.trans h2, (congrArg Ports.standsStill hports).trans h4, (congrArg Ports.clocks hports).trans ?_⟩
  · refine (congrArg (fun l : Link => { l with sent := none }) e1).trans ?_
    exact foldl_keeps State.station _ runDue_station _ s
  · exact congrArg (fun b => b.1.1) (Works.settle (Works.refl s)).blocks

/-! ### The opening of a boundary -/

theorem openFrame_kept (s : State) (env : Env) (c : Clocking) (items : List Item) :
    (s.openFrame env c items).link = s.link ∧ (s.openFrame env c items).boundaries = s.boundaries + 1
      ∧ (s.openFrame env c items).due = items ∧ (s.openFrame env c items).ports = s.ports.openBoundary env c
      ∧ (s.openFrame env c items).msg = { s.msg with
          late := env.late, frameLate := env.frameLate.filter fun b => b == .inputs || b == .mix } := by
  refine ⟨?_, rfl, rfl, rfl, rfl⟩
  unfold State.openFrame
  have passed := link_of_frame (openPass_frame s.clearLossCuts)
  have cleared := link_of_frame (clearLossCuts_frame s)
  generalize s.clearLossCuts = u at passed cleared
  generalize u.openPass = v at passed
  exact passed.trans cleared

/-- A boundary before its work: the frame before has ended, the link interface has taken its part, and the local side its own. -/
def State.opened (s : State) (link : Link → Link) (env : Env) (c : Clocking) (items : List Item) : State :=
  (s.finish.onLink link).openFrame env c items

theorem opened_kept (s : State) (link : Link → Link) (env : Env) (c : Clocking) (items : List Item) :
    (s.opened link env c items).link = link s.finish.link ∧ (s.opened link env c items).boundaries = s.boundaries + 1
      ∧ (s.opened link env c items).due = items
      ∧ (s.opened link env c items).ports.standsStill = s.ports.standsStill
      ∧ (s.opened link env c items).ports.clocks = c
      ∧ ∀ n : Fin 8, (s.opened link env c items).ports.localIn[n]
          = if s.ports.clocks = .stopped then silence else inputBlock env.audio[n] := by
  obtain ⟨o1, o2, o3, o4, -⟩ := openFrame_kept (s.finish.onLink link) env c items
  obtain ⟨-, f2, f3, f4⟩ := finish_kept s
  refine ⟨o1, o2.trans (congrArg (· + 1) f2), o3, (congrArg Ports.standsStill o4).trans f3, congrArg Ports.clocks o4, fun n => ?_⟩
  refine (congrArg (fun p : Ports => p.localIn[n]) o4).trans ?_
  refine (table_at (fun n : Fin 8 => if s.finish.ports.clocks = .stopped then silence else inputBlock env.audio[n]) n).trans ?_
  rw [f4]

/-- Settles O7: the work of the boundary leaves alone what its opening gives. -/
theorem localTimedBoundary : Obligations.LocalTimedBoundary := by
  intro env s hs hl hr
  obtain ⟨o1, o2, o3, o4, o5, o6⟩ := opened_kept s Link.localBoundary env .localRate localItems
  obtain ⟨f1, -⟩ := finish_kept s
  have counter := congrArg (fun l : Link => l.counter + 1) f1
  have state := congrArg Link.state f1
  let o := s.opened Link.localBoundary env .localRate localItems
  have link : (o.work env).link = Link.localBoundary s.finish.link := (work_link (by rw [o3]; decide) env).trans o1
  have blocks : (o.work env).blocks = o.blocks := (Works.work (Works.refl o) env).blocks
  refine ⟨o.work env, ?_, work_between (o4.trans hs) hr, ?_, ?_, ?_, ?_, fun i => ?_, ?_, fun n => ?_⟩
  · have hw : ¬ s.ports.standsStill = true := by rw [hs]; decide
    exact congrArg Host.Outcome.next ((if_neg hw).trans (if_neg (by rw [hl]; decide)))
  · exact ((still_iff _ _).mp (work_still o env)).2.1.trans o2
  · rw [link]
    exact counter
  · rw [link]
    exact state
  · rw [link]; rfl
  · rw [link]
    exact Vector.getElem_replicate ..
  · exact (congrArg (fun b => b.1.1) blocks).trans o5
  · exact (congrArg (fun b => b.1.2[n]) blocks).trans (o6 n)

end Sys2Proof.Machine

/-! SUPPORT. The boundary at which the link is lost: the report of the loss reaches the message controller, whatever the order of the
work. -/

namespace Sys2Proof.Machine

open Sys2Proof

/-! ### What an item takes off the work that is due -/

/-- The work due is that of before, in its order, less at most steps of the relay pass and meters. -/
def State.Sheds (s t : State) : Prop :=
  ∃ p : Item → Bool, t.due = s.due.filter p ∧ ∀ x, isRelayItem x = false → isMeter x = false → p x = true

theorem State.Sheds.of_eq {s t : State} (h : t.due = s.due) : s.Sheds t := ⟨fun _ => true, by simp [h], fun _ _ _ => rfl⟩

theorem State.Sheds.trans {s t u : State} (h : s.Sheds t) (g : t.Sheds u) : s.Sheds u := by
  obtain ⟨p, hp, hp'⟩ := h
  obtain ⟨q, hq, hq'⟩ := g
  exact ⟨fun x => q x && p x, by rw [hq, hp, List.filter_filter], fun x h1 h2 => by simp [hp' x h1 h2, hq' x h1 h2]⟩

theorem showResets_sheds (s : State) : s.Sheds s.showResets := by
  have run : ∀ (ws : List Waiting) (t : State), t.Sheds (ws.foldl State.takeShowReset t) := by
    intro ws
    induction ws with
    | nil => exact fun t => .of_eq rfl
    | cons w ws ih =>
      exact fun t => State.Sheds.trans ⟨_, (takeShowReset_frame t w).2.2, fun x h _ => by simp [h]⟩ (ih _)
  exact run _ _

theorem runOnce_sheds (s : State) {it : Item} {work : State → State} (h : ∀ t : State, (work t).frame = t.frame)
    (hm : isMeter it = true) : s.Sheds (s.runOnce it work) := by
  unfold State.runOnce
  split
  · refine ⟨fun x => x != it, due_of_frame (h _), fun x _ hx => ?_⟩
    rw [bne_iff_ne]
    rintro rfl
    rw [hm] at hx
    cases hx
  · exact .of_eq rfl

theorem takeMeters_sheds (s : State) : s.Sheds s.takeMeters := by
  unfold State.takeMeters
  dsimp only
  generalize hg : s.onMsg (fun m => { m with late := m.frameLate, frameLate := [] }) = g
  have h0 : s.Sheds g := .of_eq (by rw [← hg]; rfl)
  have inputs := h0.trans (runOnce_sheds g (it := .inputMeters) meterInputs_frame rfl)
  exact (inputs.trans (runOnce_sheds _ (it := .busMeters) meterBuses_frame rfl)).trans (.of_eq rfl)

theorem runItem_sheds (it : Item) (s : State) : s.Sheds (runItem it s) := by
  by_cases h1 : it = .forward
  · subst h1; exact .of_eq (forward_frame s).2.1
  by_cases h2 : it = .showReset
  · subst h2; exact showResets_sheds s
  by_cases h3 : it = .meters
  · subst h3; exact takeMeters_sheds s
  exact .of_eq (due_of_frame (runItem_frame it s h1 h2 h3))

/-- An item that is no step of the relay pass and no meter stays due until it is taken. -/
theorem due_stays {s : State} {it x : Item} (hx : x ∈ s.due) (hne : x ≠ it) (hr : isRelayItem x = false) (hm : isMeter x = false) :
    x ∈ (runItem it (s.without it)).due := by
  obtain ⟨p, hp, hk⟩ := runItem_sheds it (s.without it)
  rw [hp]
  exact List.mem_filter.mpr ⟨List.mem_filter.mpr ⟨hx, by simpa using hne⟩, hk x hr hm⟩

/-- What is due after an item was due before. -/
theorem due_before {s : State} {it x : Item} (h : x ∈ (runItem it (s.without it)).due) : x ∈ s.due :=
  (List.mem_filter.mp (runItem_due it _ x h)).1

/-! ### The report of the loss -/

/-- The record of the loss of a link. -/
def lossRecord (l : Link) : EventRecord := { stamp := l.counter, post := linkLostPost l.lockedFor }

/-- On the way to the report of a loss: no message takes a post away, and the report is still due or has been made. -/
structure State.Losing (l : Link) (s : State) : Prop where
  calm : s.msg.Calm
  cell : .cell ∉ s.due
  link : lossRecord s.link = lossRecord l
  told : .lossEvent ∈ s.due ∨ s.msg.Told (lossRecord l)
  prompt : .latePosts ∈ s.due ∨ s.msg.Prompt

/-- The report of the loss is told to the message controller. -/
theorem postLoss_told (s : State) : s.postLoss.msg.Told (lossRecord s.link) := by
  show (s.msg.send s.link.counter (linkLostPost s.link.lockedFor)).Told _
  unfold Msg.send
  split
  · exact .inr (List.mem_append_right _ List.mem_cons_self)
  · exact .inl (post_heard s.msg s.link.counter rfl)

theorem lossRecord_station {s t : State} (h : t.station = s.station) : lossRecord t.link = lossRecord s.link := by
  have record : lossRecord t.station = lossRecord s.station := congrArg lossRecord h
  exact record

/-- Each item of the boundary brings the report nearer or keeps it. -/
theorem losing_item {l : Link} {s : State} {it : Item} (h : s.Losing l) (hd : it ∈ s.due) :
    (runItem it (s.without it)).Losing l := by
  have hcell : it ≠ .cell := by rintro rfl; exact h.cell hd
  have adds := ((Works.refl (s.without it)).calmItem it h.calm hcell).adds trivial
  refine ⟨adds.calm h.calm, fun hc => h.cell (due_before hc), ?_, ?_, ?_⟩
  · exact (lossRecord_station (runItem_station it _)).trans h.link
  · obtain hl | ht := h.told
    · by_cases hit : it = .lossEvent
      · subst hit
        exact .inr (h.link ▸ postLoss_told (s.without .lossEvent))
      · exact .inl (due_stays hl (Ne.symm hit) rfl rfl)
    · exact .inr (adds.told _ rfl ht)
  · obtain hl | hp := h.prompt
    · by_cases hit : it = .latePosts
      · subst hit
        exact .inr (arrive_prompt s.msg)
      · exact .inl (due_stays hl (Ne.symm hit) rfl rfl)
    · exact .inr (adds.prompt hp)

/-- A boundary whose work is taken whole has heard of the loss. -/
theorem losing_heard {l : Link} {s : State} {env : Env} (h : s.Losing l) (hr : env.rest = true) :
    (s.work env).msg.Heard (lossRecord l) := by
  have losing : (s.work env).Losing l := work_keeps (p := State.Losing l) (fun v it hv hd => losing_item hv hd) env h
  have settled : ∀ x ∈ (s.work env).due, isMeter x = true := by
    intro x hx
    unfold State.work at hx
    rw [hr] at hx
    exact settle_due _ x hx
  have told := losing.told.resolve_left fun hx => absurd (settled _ hx) (by decide)
  have prompt := losing.prompt.resolve_left fun hx => absurd (settled _ hx) (by decide)
  exact told.resolve_right (by rw [prompt.2]; exact List.not_mem_nil)

/-- The end of a frame between boundaries leaves the message controller calm. -/
theorem finish_calm {s : State} (hb : s.between) (hc : s.msg.Calm) : s.finish.msg.Calm := by
  unfold State.finish
  rw [settle_between s hb.2]
  unfold State.endFrame
  split
  · rw [(closeFrame_kept _).2.2.1]
    refine (foldl_runDue_keeps (p := fun v => v.msg.Calm ∧ .cell ∉ v.due) (fun v it hv hd => ?_) _ ⟨hc, fun h => ?_⟩).1
    · have hcell : it ≠ .cell := by rintro rfl; exact hv.2 hd
      exact ⟨(((Works.refl (v.without it)).calmItem it hv.1 hcell).adds trivial).calm hv.1, fun h => hv.2 (due_before h)⟩
    · exact absurd (hb.2 _ h) (by decide)
  · exact hc

/-! ### The report as soon as the NODE entry has applied -/

theorem levels_due (s : State) : (s.runDue .levels).due = s.due.filter fun x => x != .levels := by
  by_cases h : .levels ∈ s.due
  · rw [runDue_of_due h]
    exact due_of_frame (takeLevels_frame _)
  · rw [runDue_of_not_due h]
    exact (List.filter_eq_self.mpr fun x hx => by rw [bne_iff_ne]; rintro rfl; exact h hx).symm

theorem node_due (s : State) : (s.runDue .node).due = s.due.filter fun x => x != .node := by
  by_cases h : .node ∈ s.due
  · rw [runDue_of_due h]
    exact due_of_frame (applyNode_frame _)
  · rw [runDue_of_not_due h]
    exact (List.filter_eq_self.mpr fun x hx => by rw [bne_iff_ne]; rintro rfl; exact h hx).symm

/-- The report taken first of all: the levels and the NODE entry come before it, and nothing else. -/
theorem takeItem_loss {s : State} (h : s.due = lossItems) :
    s.takeItem .node = (s.runDue .levels).runDue .node
      ∧ s.takeItem .lossEvent = ((s.runDue .levels).runDue .node).runDue .lossEvent := by
  have node : s.ready .node = s.runDue .levels := by
    unfold State.ready
    rw [h, show (lossItems.filter fun x => (needs .node).contains x) = [.levels] by decide]
    rfl
  have loss : s.ready .lossEvent = (s.runDue .levels).runDue .node := by
    unfold State.ready
    rw [h, show (lossItems.filter fun x => (needs .lossEvent).contains x) = [.levels, .node] by decide]
    rfl
  have due (it : Item) (hit : it ∈ lossItems) : s.takeItem it = (s.ready it).runDue it := by
    unfold State.takeItem State.isDue
    rw [h, if_pos (by simpa using hit)]
  exact ⟨(due .node (by decide)).trans (congrArg (fun v => v.runDue .node) node),
    (due .lossEvent (by decide)).trans (congrArg (fun v => v.runDue .lossEvent) loss)⟩

/-- Reported at once, the loss is the one post more. -/
theorem takeItem_loss_msg {s : State} (h : s.due = lossItems) :
    (s.takeItem .lossEvent).msg = ((s.takeItem .node).post (linkLostPost s.link.lockedFor)).msg := by
  obtain ⟨hn, hl⟩ := takeItem_loss h
  rw [hn, hl]
  have due : .lossEvent ∈ ((s.runDue .levels).runDue .node).due := by
    rw [node_due, levels_due, h]
    decide
  have station : ((s.runDue .levels).runDue .node).station = s.station := (runDue_station _ _).trans (runDue_station _ _)
  rw [runDue_of_due due]
  generalize (s.runDue .levels).runDue .node = v at station
  have locked : v.link.lockedFor = s.link.lockedFor := (congrArg Link.lockedFor station : v.station.lockedFor = s.station.lockedFor)
  rw [← locked]
  rfl

/-! ### The boundary -/

theorem linkLossBoundary_exec {s : State} (env : Env) (hs : s.ports.standsStill = false) (hl : s.link.state = .locked) :
    exec (.linkLost env) s = .next ((s.opened Link.lossBoundary env .localRate lossItems).work env) := by
  have hw : ¬ s.ports.standsStill = true := by rw [hs]; decide
  exact congrArg Host.Outcome.next ((if_neg hw).trans (if_pos hl))

/-- Settles O8: the loss is in the link interface from the opening on, and its report reaches the message controller. -/
theorem linkLossBoundary : Obligations.LinkLossBoundary := by
  intro env s hs hl
  obtain ⟨o1, o2, o3, o4, -⟩ := opened_kept s Link.lossBoundary env .localRate lossItems
  have msg := (openFrame_kept (s.finish.onLink Link.lossBoundary) env .localRate lossItems).2.2.2.2
  obtain ⟨f1, -⟩ := finish_kept s
  let o := s.opened Link.lossBoundary env .localRate lossItems
  have link : (o.work env).link = Link.lossBoundary s.finish.link := (work_link (by rw [o3]; decide) env).trans o1
  have counter := congrArg (fun l : Link => l.counter + 1) f1
  have loss := congrArg (fun l : Link => countUp l.loss) f1
  have upstream := congrArg Link.upstream f1
  have lockedFor := congrArg Link.lockedFor f1
  have locked : o.link.lockedFor = s.link.lockedFor := (congrArg Link.lockedFor o1).trans lockedFor
  refine ⟨o.work env, linkLossBoundary_exec env hs hl, ?_, ?_, ?_, ?_, ?_, ?_, ?_, ?_, fun i => ?_,
    fun hr => work_between (o4.trans hs) hr,
    fun ho hr => ⟨_, linkLossBoundary_exec { env with order := [.node] } hs hl, ?_⟩, fun hr hb hc hw => ?_⟩
  · exact ((still_iff _ _).mp (work_still o env)).2.1.trans o2
  · rw [link]; exact counter
  · rw [link]; rfl
  · rw [link]; rfl
  · rw [link]; rfl
  · rw [link]; exact upstream
  · rw [link]; exact loss
  · rw [link]; rfl
  · rw [link]
    exact Vector.getElem_replicate ..
  · have after : o.work env = o.takeItem .lossEvent := by unfold State.work; rw [ho, hr]; rfl
    have before : o.work { env with order := [.node] } = o.takeItem .node := by unfold State.work; dsimp only; rw [hr]; rfl
    rw [after, takeItem_loss_msg o3, locked]
    exact congrArg (fun v : State => (v.post (linkLostPost s.link.lockedFor)).msg) before.symm
  · have calm : o.msg.Calm := by
      have finished := finish_calm hb ⟨hc, hw⟩
      rw [show o.msg = _ from msg]
      exact finished
    have losing : o.Losing o.link :=
      ⟨calm, by rw [o3]; decide, rfl, .inl (by rw [o3]; decide), .inl (by rw [o3]; decide)⟩
    have record : lossRecord o.link = lossRecord { s.link with counter := s.link.counter + 1 } := by
      unfold lossRecord
      rw [locked, show o.link.counter = s.link.counter + 1 from (congrArg Link.counter o1).trans counter]
    have heard := losing_heard losing hr
    rw [record] at heard
    exact heard

end Sys2Proof.Machine

/-! SUPPORT. The LINK-TIMED boundary: the writes of the output map come before the forwarding, and nothing of what is forwarded
changes after it. -/

namespace Sys2Proof.Machine

open Sys2Proof

/-! ### The slots of a frame that sends are written into (R57, R167) -/

/-- What the sends write depends on the slots and the flags alone. -/
theorem writeSends_slots (xs : List (Fin 64 × Block)) {f g : Frame} (ha : g.audio = f.audio) (hv : g.validity = f.validity) :
    (xs.foldl writeSend g).audio = (xs.foldl writeSend f).audio
      ∧ (xs.foldl writeSend g).validity = (xs.foldl writeSend f).validity := by
  induction xs generalizing f g with
  | nil => exact ⟨ha, hv⟩
  | cons x xs ih => exact ih (congrArg (fun a => put a x.1 _) ha) (congrArg (fun v => setFlag v x.1.val true) hv)

theorem writeSend_same (f : Frame) (x : Fin 64 × Block) :
    (writeSend f x).valid x.1 = true ∧ ∀ n : Fin 48, (writeSend f x).audio[x.1][n] = toSample x.2[n] := by
  refine ⟨setFlag_same _ x.1.isLt _, fun n => ?_⟩
  show (put f.audio x.1 _)[x.1.val][n] = _
  rw [put_same]
  exact table_at (fun n : Fin 48 => toSample x.2[n]) n

theorem writeSend_other (f : Frame) (x : Fin 64 × Block) {i : Fin 64} (h : x.1 ≠ i) :
    (writeSend f x).audio[i] = f.audio[i] ∧ (writeSend f x).valid i = f.valid i := by
  refine ⟨put_other _ _ _ _ h, setFlag_other _ _ _ ?_⟩
  have : x.1.val ≠ i.val := fun e => h (Fin.ext e)
  omega

/-- A slot that no send claims stays as it was. -/
theorem writeSends_other (xs : List (Fin 64 × Block)) (f : Frame) {i : Fin 64} (h : ∀ x ∈ xs, x.1 ≠ i) :
    (xs.foldl writeSend f).audio[i] = f.audio[i] ∧ (xs.foldl writeSend f).valid i = f.valid i := by
  induction xs generalizing f with
  | nil => exact ⟨rfl, rfl⟩
  | cons x xs ih =>
    obtain ⟨a1, a2⟩ := ih (writeSend f x) fun y hy => h y (List.mem_cons_of_mem _ hy)
    obtain ⟨b1, b2⟩ := writeSend_other f x (h x List.mem_cons_self)
    exact ⟨a1.trans b1, a2.trans b2⟩

/-- A slot that one send claims carries it. -/
theorem writeSends_only (xs : List (Fin 64 × Block)) (f : Frame) {x : Fin 64 × Block} (hx : x ∈ xs)
    (h : ∀ y ∈ xs, y.1 = x.1 → y = x) :
    (xs.foldl writeSend f).valid x.1 = true ∧ ∀ n : Fin 48, (xs.foldl writeSend f).audio[x.1][n] = toSample x.2[n] := by
  induction xs generalizing f with
  | nil => cases hx
  | cons y ys ih =>
    by_cases hys : x ∈ ys
    · exact ih (writeSend f y) hys fun z hz => h z (List.mem_cons_of_mem _ hz)
    · obtain rfl : x = y := (List.mem_cons.mp hx).resolve_right hys
      have rest : ∀ z ∈ ys, z.1 ≠ x.1 := fun z hz e => hys (h z (List.mem_cons_of_mem _ hz) e ▸ hz)
      obtain ⟨a1, a2⟩ := writeSends_other ys (writeSend f x) rest
      obtain ⟨b1, b2⟩ := writeSend_same f x
      refine ⟨a2.trans b1, fun n => ?_⟩
      rw [List.foldl_cons, a1]
      exact b2 n

theorem mem_sendsOf (m : Mix) (x : Fin 64 × Block) : x ∈ sendsOf m ↔
    ∃ o : Fin 40, 24 ≤ o.val ∧ m.outputs[o].source ≠ .none ∧ (m.outputs[o].slot, m.sourceOut m.outputs[o].source) = x := by
  simp [sendsOf, and_assoc]

/-- The sends of a frame are those of the output map and the mix of the frame before. -/
theorem sendsOf_congr {m n : Mix} (ho : n.outputs = m.outputs) (hb : n.busOut = m.busOut) (hz : n.zoneOut = m.zoneOut) :
    sendsOf n = sendsOf m := by
  have source (x : OutSource) : n.sourceOut x = m.sourceOut x := by cases x <;> simp [Mix.sourceOut, hb, hz]
  simp only [sendsOf, ho, source]

/-! ### The frame that goes on -/

/-- The frame that goes on, for the link interface, the frame that came and the sends. -/
structure Carries (l : Link) (f : Frame) (xs : List (Fin 64 × Block)) (g : Frame) : Prop where
  passes : g.passes = true
  number : g.number = l.counter
  flags : g.flags = if !l.checked || f.damaged then 1 else 0
  hop : g.hop = BitVec.ofNat 8 (min Config.hopLimit (f.hop.toNat + 1))
  request : g.request = f.request
  audio : g.audio = (xs.foldl writeSend f).audio
  validity : g.validity = (xs.foldl writeSend f).validity

theorem forwardedFrame_carries (s : State) (f : Frame) (answer : Cell) :
    Carries s.link f (sendsOf s.mix) (s.forwardedFrame f answer) := by
  obtain ⟨h1, h2, h3, h4, -, -⟩ := forwardedFrame_head s f answer
  refine ⟨beq_self_eq_true _, h1, h2, h3, h4, ?_, ?_⟩
  · unfold State.forwardedFrame
    refine (writeSends_slots (sendsOf s.mix) ?_ ?_).1 <;> rfl
  · unfold State.forwardedFrame
    refine (writeSends_slots (sendsOf s.mix) ?_ ?_).2 <;> rfl

/-- The frame at hand has gone on, as the output map and the mix of the frame before stand. -/
def State.Forwarded (f : Frame) (s : State) : Prop := ∃ g, s.link.sent = some g ∧ Carries s.link f (sendsOf s.mix) g

theorem forward_forwarded {s : State} {f : Frame} (h : s.link.frame = some f) : s.forward.Forwarded f := by
  obtain ⟨-, -, hl, hm⟩ := placeAnswer_keeps s (s.link.checked && !f.damaged) f.answer
  rw [forward_eq h rfl]
  refine ⟨_, rfl, ?_⟩
  have carries := forwardedFrame_carries (s.placeAnswer (s.link.checked && !f.damaged) f.answer).2 f
    (s.placeAnswer (s.link.checked && !f.damaged) f.answer).1
  obtain ⟨c1, c2, c3, c4, c5, c6, c7⟩ := carries
  exact ⟨c1, c2, c3, c4, c5, c6, c7⟩

/-- Work that leaves the link interface and the sends alone changes nothing of what has gone on. -/
theorem forwarded_kept {s t : State} {f : Frame} (h : s.Forwarded f) (hl : t.link = s.link) (w : Works True False s t) :
    t.Forwarded f := by
  obtain ⟨g, hg, hc⟩ := h
  have sends : sendsOf t.mix = sendsOf s.mix :=
    sendsOf_congr (w.outputs trivial) (congrArg (fun b => b.2.1) w.blocks) (congrArg (fun b => b.2.2) w.blocks)
  exact ⟨g, hl ▸ hg, by rw [hl, sends]; exact hc⟩

/-! ### The order of the writes and the forwarding -/

/-- On the way to the forwarding: it is still due, or it is done and no write of the output map can come any more. -/
structure State.Forwards (f : Frame) (s : State) : Prop where
  frame : s.link.frame = some f
  order : s.due.Sublist allItems
  sent : .forward ∈ s.due ∨ (.writes ∉ s.due ∧ s.Forwarded f)

theorem forwards_item {f : Frame} {s : State} {it : Item} (h : s.Forwards f) (hd : it ∈ s.due)
    (hw : it = .forward → .writes ∉ s.due) : (runItem it (s.without it)).Forwards f := by
  obtain ⟨hf, ho, hs⟩ := h
  have frame : (runItem it (s.without it)).link.frame = some f :=
    (congrArg Link.frame (runItem_station it (s.without it)) : (runItem it (s.without it)).station.frame = _).trans hf
  obtain ⟨p, hp, -⟩ := runItem_sheds it (s.without it)
  refine ⟨frame, ?_, ?_⟩
  · rw [hp]
    exact (List.filter_sublist.trans List.filter_sublist).trans ho
  · by_cases hit : it = .forward
    · subst hit
      exact .inr ⟨fun hx => hw rfl (due_before hx), forward_forwarded hf⟩
    · obtain hs | ⟨hn, hs⟩ := hs
      · exact .inl (due_stays hs (Ne.symm hit) rfl rfl)
      · have hne : it ≠ .writes := by rintro rfl; exact hn hd
        exact .inr ⟨fun hx => hn (due_before hx), forwarded_kept (s := s.without it) hs (runItem_link it _ hit)
          ((Works.refl _).unmappedItem it hne)⟩

theorem forwards_runDue {f : Frame} {s : State} {it : Item} (h : s.Forwards f) (hw : it = .forward → .writes ∉ s.due) :
    (s.runDue it).Forwards f := by
  by_cases hd : it ∈ s.due
  · rw [runDue_of_due hd]; exact forwards_item h hd hw
  · rwa [runDue_of_not_due hd]

/-- A run of items in which the forwarding is not, or after the writes. -/
theorem forwards_run {f : Frame} {s : State} (its : List Item) (h : s.Forwards f) (hw : .forward ∈ its → .writes ∉ s.due) :
    (its.foldl State.runDue s).Forwards f := by
  induction its generalizing s with
  | nil => exact h
  | cons it its ih =>
    refine ih (forwards_runDue h fun e => hw (e ▸ List.mem_cons_self)) fun hm hx => ?_
    exact hw (List.mem_cons_of_mem _ hm) (runDue_due s it _ hx).1

/-- Items that are due, taken in their order: the forwarding with the writes. -/
theorem forwards_those {f : Frame} {s : State} (q : Item → Bool) (h : s.Forwards f) (hq : q .forward = true → q .writes = true) :
    ((s.due.filter q).foldl State.runDue s).Forwards f := by
  by_cases hf : .forward ∈ s.due.filter q
  · by_cases hw : .writes ∈ s.due
    · have writes : .writes ∈ s.due.filter q := List.mem_filter.mpr ⟨hw, hq (List.mem_filter.mp hf).2⟩
      obtain ⟨before, after, e⟩ := List.append_of_mem writes
      have first : .forward ∉ before := by
        intro hb
        have pair : [Item.forward, Item.writes].Sublist (before ++ .writes :: after) :=
          (List.singleton_sublist.mpr hb).append (List.singleton_sublist.mpr List.mem_cons_self)
        exact absurd ((pair.trans (e ▸ List.filter_sublist)).trans h.order) (by decide)
      rw [e, List.foldl_append, List.foldl_cons]
      refine forwards_run after (forwards_runDue (forwards_run before h fun hb => absurd hb first) nofun) fun _ hx => ?_
      exact (runDue_due _ _ _ hx).2 rfl
    · exact forwards_run _ h fun _ => hw
  · exact forwards_run _ h fun hx => absurd hx hf

theorem forward_needs (it : Item) : (needs it).contains .forward = true → (needs it).contains .writes = true := by
  cases it <;> decide

theorem forwards_takeItem {f : Frame} {s : State} (h : s.Forwards f) (it : Item) : (s.takeItem it).Forwards f := by
  unfold State.takeItem
  split
  · refine forwards_runDue (forwards_those _ h (forward_needs it)) ?_
    rintro rfl hx
    obtain ⟨hdue, hnot⟩ := foldl_runDue_due _ s _ hx
    exact hnot (List.mem_filter.mpr ⟨hdue, by decide⟩)
  · exact h

/-- A boundary whose work is taken whole has forwarded its frame. -/
theorem forwards_work {f : Frame} {s : State} {env : Env} (h : s.Forwards f) (hr : env.rest = true) : (s.work env).Forwarded f := by
  have taken : ∀ (its : List Item) (v : State), v.Forwards f → (its.foldl State.takeItem v).Forwards f := by
    intro its
    induction its with
    | nil => exact fun _ hv => hv
    | cons it its ih => exact fun v hv => ih _ (forwards_takeItem hv it)
  unfold State.work
  rw [hr]
  have settled := forwards_those (fun x => !isMeter x) (taken env.order s h) fun _ => rfl
  exact (settled.sent.resolve_left fun hx => absurd (settle_due _ _ hx) (by decide)).2

/-! ### The boundary -/

/-- What goes on, read field by field and slot by slot. -/
theorem carries_reads {l : Link} {f g : Frame} {m : Mix} (h : Carries l f (sendsOf m) g) (hh : f.hop.toNat < 62) :
    g.hop.toNat = f.hop.toNat + 1
      ∧ (∀ o : Fin 40, 24 ≤ o.val → m.outputs[o].source ≠ .none →
          (∀ q : Fin 40, 24 ≤ q.val → m.outputs[q].source ≠ .none → m.outputs[q].slot = m.outputs[o].slot → q = o) →
          g.valid m.outputs[o].slot = true
            ∧ ∀ n : Fin 48, g.audio[m.outputs[o].slot][n] = toSample (m.sourceOut m.outputs[o].source)[n])
      ∧ ∀ i : Fin 64, (∀ o : Fin 40, 24 ≤ o.val → m.outputs[o].source ≠ .none → m.outputs[o].slot ≠ i) →
          g.audio[i] = f.audio[i] ∧ g.valid i = f.valid i := by
  refine ⟨?_, fun o ho hs hone => ?_, fun i hi => ?_⟩
  · rw [h.hop, BitVec.toNat_ofNat]
    have : Config.hopLimit = 62 := rfl
    omega
  · obtain ⟨a1, a2⟩ := writeSends_only (sendsOf m) f ((mem_sendsOf m (m.outputs[o].slot, _)).mpr ⟨o, ho, hs, rfl⟩) (by
      intro y hy e
      obtain ⟨q, hq, hqs, rfl⟩ := (mem_sendsOf m y).mp hy
      rw [hone q hq hqs e])
    unfold Frame.valid at a1 ⊢
    rw [h.audio, h.validity]
    exact ⟨a1, a2⟩
  · obtain ⟨a1, a2⟩ := writeSends_other (sendsOf m) f (i := i) (by
      intro y hy
      obtain ⟨q, hq, hqs, rfl⟩ := (mem_sendsOf m y).mp hy
      exact hi q hq hqs)
    unfold Frame.valid at a2 ⊢
    rw [h.audio, h.validity]
    exact ⟨a1, a2⟩

theorem linkTimedBoundary_exec {p : Port} {f : Frame} (env : Env) {s : State} (hs : s.ports.standsStill = false)
    (hl : s.link.state = .locked) (hu : s.link.upstream = some p) (hh : f.hop.toNat < 62) :
    exec (.frameArrival p f env) s = .next ((s.opened (Link.frameBoundary f) env .linkRate linkItems).work env) := by
  have hw : ¬ s.ports.standsStill = true := by rw [hs]; decide
  have ours : ¬ (s.link.upstream.isSome ∧ s.link.upstream ≠ some p) := fun h => h.2 hu
  have near : ¬ Config.hopLimit ≤ f.hop.toNat := by have : Config.hopLimit = 62 := rfl; omega
  exact congrArg Host.Outcome.next ((if_neg hw).trans (((if_neg ours).trans (if_neg near)).trans (if_pos hl)))

/-- Settles O6: the link interface takes the frame in at the opening, and the forwarding sends it on once. -/
theorem linkTimedBoundary : Obligations.LinkTimedBoundary := by
  intro p f env s hs hl hu hh hr
  obtain ⟨o1, o2, o3, o4, -⟩ := opened_kept s (Link.frameBoundary f) env .linkRate linkItems
  obtain ⟨f1, -⟩ := finish_kept s
  let o := s.opened (Link.frameBoundary f) env .linkRate linkItems
  have station : { (o.work env).link with sent := none } = Link.frameBoundary f s.finish.link :=
    (work_station o env).trans (congrArg (fun l : Link => { l with sent := none }) o1)
  have counter := congrArg Link.counter station
  have damaged := congrArg Link.damaged station
  have oldState := congrArg Link.state f1
  have oldCounter := congrArg Link.counter f1
  have oldDamaged := congrArg Link.damaged f1
  have checked := congrArg Link.checked station
  have forwards : o.Forwards f := by
    refine ⟨congrArg Link.frame o1, ?_, .inl ?_⟩
    · rw [o3]; exact List.filter_sublist
    · rw [o3]; decide
  obtain ⟨g, hg, hc⟩ := forwards_work forwards hr
  obtain ⟨g1, g2, g3⟩ := carries_reads hc hh
  refine ⟨o.work env, g, linkTimedBoundary_exec env hs hl hu hh, work_between (o4.trans hs) hr, hg, ?_, ?_, ?_, ?_, ?_,
    fun i => ⟨?_, ?_⟩, hc.passes, hc.number, g1, ?_, hc.request, g2, g3⟩
  · exact ((still_iff _ _).mp (work_still o env)).2.1.trans o2
  · exact congrArg Link.linkTimed station
  · exact (congrArg Link.state station).trans (oldState.trans hl)
  · exact counter.trans (congrArg (fun n : U32 => if f.passes then f.number else n + 1) oldCounter)
  · exact damaged.trans (congrArg (fun n => if f.passes then n else countUp n) oldDamaged)
  · refine (congrArg (fun l : Link => l.slotValid[i]) station).trans ?_
    exact table_at (fun i : Fin 64 => f.passes && !f.damaged && f.valid i) i
  · refine (congrArg (fun l : Link => l.slots[i]) station).trans ?_
    exact table_at (fun i : Fin 64 => f.slot i) i
  · rw [hc.flags, show (o.work env).link.checked = f.passes from checked]
    cases f.passes <;> cases f.damaged <;> rfl

end Sys2Proof.Machine
